-- ==== Sys2Proof/Word.lean ====
section
/-! DEFINITION. The word types of CORE: the bus word, the register offset, and the widths of the wide registers. Every value
is unsigned (R11, R15). -/

namespace Sys2Proof

/-- A value on the host's bus: every register is 32 bits wide (R9 `BUS_WIDTH`, R37). -/
abbrev BusWord := BitVec 32

/-- A byte offset in the register window, 0x00 to 0xFF (R9 `ADDR_WIDTH`, R37). -/
abbrev Offset := BitVec 8

/-- The key register KEY0 to KEY7 (R27). -/
abbrev KeyReg := BitVec 256

/-- A block register, DIN or DOUT (R28, R29). -/
abbrev Block := BitVec 128

/-- One entry of a round-key file (R32, R33). -/
abbrev StoredKey := BitVec 64

end Sys2Proof
end

