-- ==== Sys2Proof/Syntax.lean ====
section
/-! DEFINITION. The commands of CORE (R48), the registers by name (R55), and what the outside world can do to CORE in one
step: a bus access or an assertion of `rst` (R125, R137). -/

namespace Sys2Proof

/-- The eight commands (R48), one constructor for each row of the opcode table. No command has an operand field (R50). -/
inductive Instr where
  /-- KEYLOAD, 0x0000_0001 (R70). -/
  | keyload
  /-- ENCRYPT, 0x0000_0002 (R85). -/
  | encrypt
  /-- DECRYPT, 0x0000_0003 (R86). -/
  | decrypt
  /-- CLEAR, 0x0000_0004 (R105). -/
  | clear
  /-- V1_KEYLOAD, 0x0000_0009 (R97). -/
  | v1Keyload
  /-- V1_ENCRYPT, 0x0000_000A (R101). -/
  | v1Encrypt
  /-- V1_DECRYPT, 0x0000_000B (R102). -/
  | v1Decrypt
  /-- V1_CLEAR, 0x0000_000C (R106). -/
  | v1Clear
  deriving DecidableEq, Repr

/-- The registers of the map (R38), under the names of R55. -/
inductive Reg where
  | id
  | cmd
  | status
  | irqEn
  | config
  | v1Cfg0
  | v1Cfg1
  | key (j : Fin 8)
  | din (j : Fin 4)
  | dout (j : Fin 4)
  | acfg0
  | acfg1
  | v1Acfg0
  | v1Acfg1
  | tableCount
  | table (i : Fin 10)
  deriving DecidableEq, Repr

/-- The size of a bus access. Only `word` is defined by CORE (R42). -/
inductive AccessSize where
  | byte
  | half
  | word
  deriving DecidableEq, Repr

/-- One thing the outside world does: `wr`, `rd` and `poll` of R55, and the reset input (R125). -/
inductive Input where
  /-- A bus write of `v` (R40). -/
  | write (a : Offset) (size : AccessSize) (v : BusWord)
  /-- A bus read (R39). -/
  | read (a : Offset) (size : AccessSize)
  /-- 32-bit reads of the register at `a`, repeated until the bits under `mask` are `value` (R55). -/
  | poll (a : Offset) (mask value : BusWord)
  /-- An assertion of `rst` (R125). -/
  | rst
  deriving DecidableEq, Repr

end Sys2Proof
end

