-- ==== Sys2Proof/WellFormed.lean ====
section
/-! DEFINITION. Which commands and which inputs are well formed. A command has no operand field, so every command is (R50);
an access is when it is 32 bits wide and word-aligned (R42). -/

namespace Sys2Proof

/-- No command has an operand field that could be out of range (R50). -/
def Instr.wf : Instr → Bool
  | .keyload | .encrypt | .decrypt | .clear => true
  | .v1Keyload | .v1Encrypt | .v1Decrypt | .v1Clear => true

/-- The offset is a multiple of 4 (R42). -/
def Offset.aligned (a : Offset) : Bool := a.toNat % 4 == 0

/-- The accesses CORE defines: 32 bits wide, at an aligned offset (R42). An assertion of `rst` is always well formed. -/
def Input.wf : Input → Bool
  | .write a size _ => size == .word && Offset.aligned a
  | .read a size => size == .word && Offset.aligned a
  | .poll a _ _ => Offset.aligned a
  | .rst => true

end Sys2Proof
end

