-- ==== Sys2Proof/Decode.lean ====
section
/-! DEFINITION. The command word: its decoder, total on any word and rejecting by name (R49), and after it the encoder,
written from the fields of the format (R48). -/

namespace Sys2Proof

/-- Why a word is no command. -/
inductive DecodeError where
  /-- The word is not one of the eight command words: `ILLEGAL` of R49. -/
  | illegal
  deriving DecidableEq, Repr

/-- One row of the opcode table: the words that agree with `pattern` under `mask` are the command's. -/
structure OpcodeRow where
  pattern : BusWord
  mask : BusWord
  instr : Instr
  deriving DecidableEq, Repr

/-- R48's table. The mask of every command is all ones (R49). -/
def opcodeTable : List OpcodeRow :=
  [ ⟨0x00000001, 0xFFFFFFFF, .keyload⟩,
    ⟨0x00000002, 0xFFFFFFFF, .encrypt⟩,
    ⟨0x00000003, 0xFFFFFFFF, .decrypt⟩,
    ⟨0x00000004, 0xFFFFFFFF, .clear⟩,
    ⟨0x00000009, 0xFFFFFFFF, .v1Keyload⟩,
    ⟨0x0000000A, 0xFFFFFFFF, .v1Encrypt⟩,
    ⟨0x0000000B, 0xFFFFFFFF, .v1Decrypt⟩,
    ⟨0x0000000C, 0xFFFFFFFF, .v1Clear⟩ ]

/-- `Decode(v)` of R49: the command whose word equals all 32 bits of `v`; every other word is illegal. -/
def decode (v : BusWord) : Except DecodeError Instr :=
  match opcodeTable.find? (fun r => v &&& r.mask == r.pattern) with
  | some r => .ok r.instr
  | none => .error .illegal

/-- The field M of R48: false for the primary engine, true for the V1 module. -/
def moduleBit : Instr → Bool
  | .keyload | .encrypt | .decrypt | .clear => false
  | .v1Keyload | .v1Encrypt | .v1Decrypt | .v1Clear => true

/-- The field F of R48: 1 key load, 2 encrypt, 3 decrypt, 4 clear. -/
def functionField : Instr → BitVec 3
  | .keyload | .v1Keyload => 1
  | .encrypt | .v1Encrypt => 2
  | .decrypt | .v1Decrypt => 3
  | .clear | .v1Clear => 4

/-- The command word: bits 31:4 zero, bit 3 is M, bits 2:0 are F (R48). -/
def encode (i : Instr) : BusWord := 0#28 ++ BitVec.ofBool (moduleBit i) ++ functionField i

/-- The 32-bit word whose bits are the low `nbits` bits of `w`, numbered as the opcode table numbers them: a command is one
bus word, and bit i of the table's row is bit i of that word (R45, R48, log 10). -/
def commandWord (nbits w : Nat) : BusWord := BitVec.ofNat 32 (w % 2 ^ nbits)

/-- The command this decoder reads from the table word `w`. -/
def decodeTableWord (nbits w : Nat) : Option Instr :=
  match decode (commandWord nbits w) with
  | .ok i => some i
  | .error _ => none

end Sys2Proof
end

