-- ==== Sys2Proof/Config.lean ====
section
/-! DEFINITION. The fixed parameters of CORE (R9) and its one open parameter, `LATENCY` (R10), as a free value. -/

namespace Sys2Proof.Config

/-- `BLOCK_SIZES` (R9): the block sizes that are keys of the configuration table. -/
def blockSizes : List Nat := [32, 48, 64, 96, 128]

/-- `MAX_BLOCK` (R9). -/
def maxBlock : Nat := 128

/-- `MAX_WORD` (R9). -/
def maxWord : Nat := 64

/-- `MAX_KEY` (R9). -/
def maxKey : Nat := 256

/-- `MAX_ROUNDS` (R9). -/
def maxRounds : Nat := 34

/-- `NUM_CONFIGS` (R9): what `TABLE_COUNT` reads (R34). -/
def numConfigs : Nat := 10

/-- `V1_MAX_WORD` (R9, R92). -/
def v1MaxWord : Nat := 64

/-- `V1_MAX_KEYS` (R9, R92). -/
def v1MaxKeys : Nat := 4

/-- `V1_MAX_ROUNDS` (R9, R92). -/
def v1MaxRounds : Nat := 64

/-- `ID_VALUE` (R9, R20): the characters "SPK" and the interface version 1. -/
def idValue : BusWord := 0x53504B01

/-- FREE VALUE (DESIGN CHOICE, log 1). The open parameter `LATENCY` (R10, R134): the number of host accesses that are made
between the n-th accept and the completion of the command it accepted. Nothing constrains it. -/
opaque latency : Nat → Nat

end Sys2Proof.Config
end

