-- ==== Sys2Proof/Machine/State.lean ====
section
/-! DEFINITION. The state of CORE: the record of R17, and beside it the model's own fields for the host and for the open
parameter `LATENCY`. Also the reasons a step can stop, and the state after reset (R125). -/

namespace Sys2Proof.Machine

/-- The errors of R109 that are ever produced. Codes 7 to 15 have no constructor (I5, log 9). -/
inductive ErrorCode where
  /-- Code 1: `config.BLOCK_SIZE` is no table key (R58). -/
  | invalidBlockSize
  /-- Code 2: `config.KEY_SIZE` is not valid for the block size (R59). -/
  | invalidKeySize
  /-- Code 3: the word written to CMD is no command word (R49). -/
  | illegalCommand
  /-- Code 4: ENCRYPT or DECRYPT with no primary instance (R87). -/
  | notKeyed
  /-- Code 5: a V1 parameter is out of range (R94). -/
  | v1InvalidParam
  /-- Code 6: V1_ENCRYPT or V1_DECRYPT with no V1 instance (R103). -/
  | v1NotKeyed
  deriving DecidableEq, Repr

/-- CONFIG (R24): the arguments of the primary construction, as written by the host. -/
structure ConfigReg where
  blockSize : BitVec 8
  keySize : BitVec 9
  deriving DecidableEq, Repr

/-- V1_CFG0 (R25). -/
structure V1Cfg0 where
  wordBits : BitVec 7
  nkeys : BitVec 3
  rounds : BitVec 7
  deriving DecidableEq, Repr

/-- V1_CFG1 (R26). -/
structure V1Cfg1 where
  rotR : BitVec 6
  rotL : BitVec 6
  deriving DecidableEq, Repr

/-- IRQ_EN (R23): the enables of the interrupt output. -/
structure IrqEn where
  doneIe : Bool
  errIe : Bool
  ovrIe : Bool
  deriving DecidableEq, Repr

/-- The active configuration `acfg` of the primary instance (R31). -/
structure ActiveConfig where
  bs : BitVec 8
  ks : BitVec 9
  rounds : BitVec 8
  w : BitVec 8
  alpha : BitVec 4
  beta : BitVec 4
  deriving DecidableEq, Repr

/-- The active configuration `v1_acfg` of the V1 instance (R33). -/
structure V1ActiveConfig where
  wordBits : BitVec 7
  nkeys : BitVec 3
  rounds : BitVec 7
  rotR : BitVec 6
  rotL : BitVec 6
  deriving DecidableEq, Repr

/-- `acfg` when there is no primary instance: every field 0 (R31). -/
def ActiveConfig.zero : ActiveConfig := ⟨0, 0, 0, 0, 0, 0⟩

/-- `v1_acfg` when there is no V1 instance: every field 0 (R33). -/
def V1ActiveConfig.zero : V1ActiveConfig := ⟨0, 0, 0, 0, 0⟩

/-- The state: R17's record, then the model's own fields (log 1, log 2). -/
structure State where
  /-- CONFIG (R24). -/
  config : ConfigReg
  /-- V1_CFG0 (R25). -/
  v1cfg0 : V1Cfg0
  /-- V1_CFG1 (R26). -/
  v1cfg1 : V1Cfg1
  /-- IRQ_EN (R23). -/
  irqEn : IrqEn
  /-- KEY0 to KEY7 (R27). -/
  key : KeyReg
  /-- DIN0 to DIN3 (R28). -/
  din : Block
  /-- DOUT0 to DOUT3 (R29). -/
  dout : Block
  /-- STATUS.DONE (R22). -/
  done : Bool
  /-- STATUS.ERR (R22). -/
  err : Bool
  /-- STATUS.OVR (R22). -/
  ovr : Bool
  /-- STATUS.ERRCODE (R22, R109); `none` is code 0, NONE. -/
  errcode : Option ErrorCode
  /-- The command sequencer (R19): the command in flight; BUSY is `pending ≠ none`. -/
  pending : Option Instr
  /-- The primary instance exists (R31). -/
  keyed : Bool
  /-- The primary instance's configuration (R31). -/
  acfg : ActiveConfig
  /-- The primary round-key file `rk[0..33]` (R32). -/
  rk : Vector StoredKey 34
  /-- The V1 instance exists (R33). -/
  v1Keyed : Bool
  /-- The V1 instance's configuration (R33). -/
  v1Acfg : V1ActiveConfig
  /-- The V1 round-key file `v1_rk[0..63]` (R33). -/
  v1Rk : Vector StoredKey 64
  /-- MODEL's own (DESIGN CHOICE, log 2): the host's accesses and the assertions of `rst` still to come, oldest first. -/
  inputs : List Input
  /-- MODEL's own (DESIGN CHOICE, log 2): the values that the host's bus reads returned, those of a `poll`
  among them, oldest first (R36, R138). -/
  seen : List BusWord
  /-- MODEL's own (DESIGN CHOICE, log 1): how many host accesses still come before the command in flight completes. -/
  latencyLeft : Nat
  /-- MODEL's own (DESIGN CHOICE, log 1): how many values of `Config.latency` have been drawn. -/
  draws : Nat
  deriving DecidableEq, Repr

/-- Why a step stops as a fault. CORE itself never traps (R108, R115). -/
inductive Fault where
  /-- Raised by the completion of KEYLOAD or V1_KEYLOAD in a state whose operands do not pass the command's accept check
  (R69, R94). The spec gives that no effect, since every check was made at accept (R51), and no run reaches it. SAFE (log 8). -/
  | completionUnchecked (c : Instr)
  deriving DecidableEq, Repr

/-- Why a step has no meaning. -/
inductive Refusal where
  /-- Raised by an arm of `exec` whose command has no meaning yet. SAFE: no arm is left so. -/
  | notModelled (mnemonic : String)
  /-- Raised by a bus access that is not 32 bits wide, which the spec refuses (R42, I6). SAFE (log 7). -/
  | narrowAccess
  /-- Raised by a bus access at an offset that is no multiple of 4, which the spec refuses (R42, I6). SAFE (log 7). -/
  | misalignedAccess
  deriving DecidableEq, Repr

/-- The state right after reset: every element at its value of R125, and the model's own fields empty (log 3). -/
def State.reset : State where
  config := ⟨128, 128⟩
  v1cfg0 := ⟨0, 0, 0⟩
  v1cfg1 := ⟨0, 0⟩
  irqEn := ⟨false, false, false⟩
  key := 0
  din := 0
  dout := 0
  done := false
  err := false
  ovr := false
  errcode := none
  pending := none
  keyed := false
  acfg := ActiveConfig.zero
  rk := Vector.replicate 34 0
  v1Keyed := false
  v1Acfg := V1ActiveConfig.zero
  v1Rk := Vector.replicate 64 0
  inputs := []
  seen := []
  latencyLeft := 0
  draws := 0

end Sys2Proof.Machine
end

