-- ==== Sys2Proof/Machine/Flags.lean ====
section
/-! DEFINITION. STATUS as it is read (R22, R39), the error codes (R109), the W1C bits of a STATUS write (R22), the IRQ_EN
fields (R23) and the interrupt output (R117). -/

namespace Sys2Proof.Machine

/-- The code of an error (R109). -/
def ErrorCode.code : ErrorCode → BitVec 4
  | .invalidBlockSize => 1
  | .invalidKeySize => 2
  | .illegalCommand => 3
  | .notKeyed => 4
  | .v1InvalidParam => 5
  | .v1NotKeyed => 6

/-- The ERRCODE field (R22): 0 when there is no error. -/
def errcodeField (e : Option ErrorCode) : BitVec 4 :=
  match e with
  | none => 0
  | some e => e.code

/-- BUSY: 1 exactly when a command is in flight (R19). -/
def busy (s : State) : Bool := s.pending.isSome

/-- STATUS (R22, R39). -/
def statusWord (s : State) : BusWord :=
  0#20 ++ errcodeField s.errcode ++ 0#2 ++ BitVec.ofBool s.v1Keyed ++ BitVec.ofBool s.keyed
    ++ BitVec.ofBool s.ovr ++ BitVec.ofBool s.err ++ BitVec.ofBool s.done ++ BitVec.ofBool (busy s)

/-- IRQ_EN as it is read (R39). -/
def irqEnWord (e : IrqEn) : BusWord :=
  0#29 ++ BitVec.ofBool e.ovrIe ++ BitVec.ofBool e.errIe ++ BitVec.ofBool e.doneIe

/-- The fields of a word written to IRQ_EN (R23, R40). -/
def irqEnOf (v : BusWord) : IrqEn := ⟨v.getLsbD 0, v.getLsbD 1, v.getLsbD 2⟩

/-- The interrupt output (R117): a function of the state. -/
def irq (s : State) : Bool :=
  (s.done && s.irqEn.doneIe) || (s.err && s.irqEn.errIe) || (s.ovr && s.irqEn.ovrIe)

end Sys2Proof.Machine
end

