-- ==== Sys2Proof/Machine/Resolver.lean ====
section
/-! DEFINITION. The configuration resolver: the table of ten configurations (R57) and `Resolve` (R58 to R60). -/

namespace Sys2Proof.Machine

/-- One row of R57's table. -/
structure TableRow where
  bs : Nat
  ks : Nat
  rounds : Nat
  deriving DecidableEq, Repr

/-- R57's table, in the order of TABLE0 to TABLE9 (R34). -/
def configTable : List TableRow :=
  [ ⟨32, 64, 22⟩,
    ⟨48, 72, 22⟩,
    ⟨48, 96, 23⟩,
    ⟨64, 96, 26⟩,
    ⟨64, 128, 27⟩,
    ⟨96, 96, 28⟩,
    ⟨96, 144, 29⟩,
    ⟨128, 128, 32⟩,
    ⟨128, 192, 33⟩,
    ⟨128, 256, 34⟩ ]

/-- SPK's `CipherConfig`, with the derived values of R60. -/
structure CipherConfig where
  bs : Nat
  ks : Nat
  w : Nat
  rounds : Nat
  alpha : Nat
  beta : Nat
  deriving DecidableEq, Repr

/-- The number of key words `m` (R60, R63). -/
def CipherConfig.m (c : CipherConfig) : Nat := c.ks / c.w

/-- `wordMask` = 2^w - 1 (R60): a function of the word width, not stored in `acfg`. -/
def CipherConfig.wordMask (c : CipherConfig) : Nat := 2 ^ c.w - 1

/-- `wordModulus` = 2^w (R60): a function of the word width, not stored in `acfg`. -/
def CipherConfig.wordModulus (c : CipherConfig) : Nat := 2 ^ c.w

/-- The values derived from a row (R60, R61): the rotation amounts depend on the block size alone. -/
def configOf (r : TableRow) : CipherConfig where
  bs := r.bs
  ks := r.ks
  w := r.bs / 2
  rounds := r.rounds
  alpha := if r.bs = 32 then 7 else 8
  beta := if r.bs = 32 then 2 else 3

/-- The row of the pair, if the pair is one of the ten (R57). -/
def findRow (bs ks : Nat) : Option TableRow := configTable.find? (fun r => r.bs == bs && r.ks == ks)

/-- `Resolve(bs, ks)` (R58 to R60): the block size is checked first; no default, no rounding (R62). -/
def resolve (bs ks : Nat) : Except ErrorCode CipherConfig :=
  if bs ∈ Config.blockSizes then
    match findRow bs ks with
    | some r => .ok (configOf r)
    | none => .error .invalidKeySize
  else .error .invalidBlockSize

/-- The valid key sizes for a block size, which a host lists from the TABLE registers (R111). -/
def validKeySizes (bs : Nat) : List Nat := (configTable.filter (fun r => r.bs == bs)).map (·.ks)

/-- What a KEYLOAD latches into `acfg` (R31, R70). -/
def latchedConfig (c : CipherConfig) : ActiveConfig where
  bs := BitVec.ofNat 8 c.bs
  ks := BitVec.ofNat 9 c.ks
  rounds := BitVec.ofNat 8 c.rounds
  w := BitVec.ofNat 8 c.w
  alpha := BitVec.ofNat 4 c.alpha
  beta := BitVec.ofNat 4 c.beta

end Sys2Proof.Machine
end

