-- ==== Sys2Proof/Machine/Operands.lean ====
section
/-! DEFINITION. Where the commands read their operands from (R50), how a block is cut into words and joined (R81), the key
words of both modules (R66, R67, R95), the words of a wide register (R45), and the round-key files. -/

namespace Sys2Proof.Machine

/-- blockSize = CONFIG[7:0] (R50). -/
def blockSizeArg (s : State) : Nat := s.config.blockSize.toNat

/-- keySize = CONFIG[24:16] (R50). -/
def keySizeArg (s : State) : Nat := s.config.keySize.toNat

/-- `Resolve` on the fields of CONFIG (R69). -/
def resolveConfig (s : State) : Except ErrorCode CipherConfig := resolve (blockSizeArg s) (keySizeArg s)

/-- V1 bits = V1_CFG0[6:0] (R50, R92). -/
def v1BitsArg (s : State) : Nat := s.v1cfg0.wordBits.toNat

/-- V1 key count = V1_CFG0[10:8] (R50, R92). -/
def v1KeysArg (s : State) : Nat := s.v1cfg0.nkeys.toNat

/-- V1 rounds = V1_CFG0[22:16] (R50, R92). -/
def v1RoundsArg (s : State) : Nat := s.v1cfg0.rounds.toNat

/-- The ranges of R92: 1 to 64 bits, 1 to 4 key words, 1 to 64 rounds. Every rotation count is legal (R99). -/
def v1Legal (bits n rounds : Nat) : Bool :=
  decide (1 ≤ bits ∧ bits ≤ Config.v1MaxWord ∧ 1 ≤ n ∧ n ≤ Config.v1MaxKeys ∧ 1 ≤ rounds ∧ rounds ≤ Config.v1MaxRounds)

/-- The parameters in V1_CFG0 are legal (R94). -/
def v1ParamsLegal (s : State) : Bool := v1Legal (v1BitsArg s) (v1KeysArg s) (v1RoundsArg s)

/-- Register word `j` of a wide register: its bits 32j+31 down to 32j (R45). -/
def getWord {n : Nat} (x : BitVec n) (j : Nat) : BusWord := x.extractLsb' (32 * j) 32

/-- The wide register with its register word `j` replaced (R45, R40). -/
def setWord {n : Nat} (x : BitVec n) (j : Nat) (v : BusWord) : BitVec n :=
  (x &&& ~~~((0xFFFFFFFF#32).setWidth n <<< (32 * j))) ||| (v.setWidth n <<< (32 * j))

/-- `trunc_n` on a block register: the bits at and above `n` become 0 (R82, R100). -/
def truncBlock (n : Nat) (x : Block) : Block := (x.setWidth n).setWidth 128

/-- `Split_w(x)` of R81: the upper word is the high one. -/
def split (w : Nat) (x : Block) : BitVec w × BitVec w := (x.extractLsb' w w, x.setWidth w)

/-- `zext_128(Join_w(upper, lower))` of R81. -/
def join {w : Nat} (p : BitVec w × BitVec w) : Block := (p.1.setWidth 128 <<< w) ||| p.2.setWidth 128

/-- The key truncated to `ks` bits and cut into ks / w words, word 0 the least significant (R66, R67). -/
def keyWords (w ks : Nat) (key : KeyReg) : List (BitVec w) :=
  (List.range (ks / w)).map (fun j => (key.setWidth ks).extractLsb' (j * w) w)

/-- The V1 key words: word `j` is the low `bits` bits of the 64-bit lane `j` of the key register (R95). -/
def v1KeyWords (bits n : Nat) (key : KeyReg) : List (BitVec bits) :=
  (List.range n).map (fun j => (key.extractLsb' (64 * j) 64).setWidth bits)

/-- A round-key file: the schedule's words zero-extended to 64 bits, and 0 above them (R32, R33). -/
def keyFile {w : Nat} (depth : Nat) (keys : List (BitVec w)) : Vector StoredKey depth :=
  Vector.ofFn (fun i => (keys.getD i.val 0).setWidth 64)

/-- The first `rounds` entries of a round-key file, each read as a `w`-bit word (R83, R101). -/
def roundKeys {depth : Nat} (w rounds : Nat) (file : Vector StoredKey depth) : List (BitVec w) :=
  (file.toList.take rounds).map (fun k => k.setWidth w)

end Sys2Proof.Machine
end

