-- ==== Sys2Proof/Machine/Ops.lean ====
section
/-! DEFINITION. The shared operations on the state: raising an error (this hardware's one kind of exception, R113) and
acknowledging it (R116), the two halves of a command's life (R47, R51), the dropped write (R43), and reset (R125). -/

namespace Sys2Proof.Machine

/-- The first line of `Accept`: DONE, ERR and ERRCODE are cleared, OVR is not (R47). -/
def clearResult (s : State) : State := { s with done := false, err := false, errcode := none }

/-- `raise E` (R113): sets ERR and ERRCODE and nothing else. It saves nothing and redirects nothing (R115). -/
def raise (e : ErrorCode) (s : State) : State := { s with err := true, errcode := some e }

/-- A write of `v` to STATUS (R22, R116): the return from an error. Writing 1 to DONE, ERR or OVR clears it, and clearing ERR
clears ERRCODE. -/
def acknowledge (v : BusWord) (s : State) : State :=
  { s with
    done := s.done && !v.getLsbD 1
    err := s.err && !v.getLsbD 2
    errcode := if v.getLsbD 2 then none else s.errcode
    ovr := s.ovr && !v.getLsbD 3 }

/-- A write to an argument register while busy: it is dropped and sets OVR (R43). -/
def dropWrite (s : State) : State := { s with ovr := true }

/-- `Accept` of a decoded command whose check has answered (R47): an error is raised and the sequencer stays idle, or the
command is in flight. The number of host accesses until its completion is drawn (R134, log 1). -/
def accept (c : Instr) (verdict : Option ErrorCode) (s : State) : State :=
  match verdict with
  | some e => raise e (clearResult s)
  | none => { clearResult s with pending := some c, latencyLeft := Config.latency s.draws, draws := s.draws + 1 }

/-- The last two lines of `Complete` (R51). -/
def finish (s : State) : State := { s with pending := none, done := true, latencyLeft := 0 }

/-- `Complete` (R51): the effect, then the sequencer falls idle with DONE set, in one step. -/
def complete (effect : Except Fault State) : Host.Outcome State Fault Refusal :=
  match effect with
  | .ok t => .next (finish t)
  | .error f => .fault f

/-- What CORE does with command `c` in state `s` (log 4). Idle: `Accept` (R47). With `c` in flight: `Complete` (R51). With
another command in flight: the write of `c` is dropped (R43). -/
def runCommand (c : Instr) (check : State → Option ErrorCode) (effect : State → Except Fault State) (s : State) :
    Host.Outcome State Fault Refusal :=
  match s.pending with
  | none => .next (accept c (check s) s)
  | some p => if p = c then complete (effect s) else .next (dropWrite s)

/-- A bus read by the host returned `v`: the value joins the observation of the run (R36, log 2), and CORE is as it was (R39). -/
def observe (v : BusWord) (s : State) : State := { s with seen := s.seen ++ [v] }

/-- An assertion of `rst` (R125, R127): every element of R17 takes its reset value in one step, and a command in flight is
abandoned with no part of its effect. What the host still does and has seen is not CORE's (log 2). -/
def resetCore (s : State) : State :=
  { State.reset with inputs := s.inputs, seen := s.seen, draws := s.draws }

end Sys2Proof.Machine
end

