-- ==== Sys2Proof/Machine/Control.lean ====
section
/-! DEFINITION. The control commands, which zeroize one instance and the shared argument and result registers: CLEAR (R105)
and V1_CLEAR (R106). -/

namespace Sys2Proof.Machine

/-- CLEAR and V1_CLEAR have no accept check (R52). -/
def checkNothing (_ : State) : Option ErrorCode := none

/-- `key`, `din` and `dout` become 0 (R105, R106). -/
def zeroShared (s : State) : State := { s with key := 0, din := 0, dout := 0 }

/-- `Effect(CLEAR)` (R105). -/
def effectClear (s : State) : Except Fault State :=
  .ok { zeroShared s with keyed := false, acfg := ActiveConfig.zero, rk := Vector.replicate 34 0 }

/-- `Effect(V1_CLEAR)` (R106). -/
def effectV1Clear (s : State) : Except Fault State :=
  .ok { zeroShared s with v1Keyed := false, v1Acfg := V1ActiveConfig.zero, v1Rk := Vector.replicate 64 0 }

/-- CLEAR (R105). -/
def execClear (s : State) : Host.Outcome State Fault Refusal := runCommand .clear checkNothing effectClear s

/-- V1_CLEAR (R106). -/
def execV1Clear (s : State) : Host.Outcome State Fault Refusal := runCommand .v1Clear checkNothing effectV1Clear s

end Sys2Proof.Machine
end

