-- ==== Sys2Proof/Machine/Round.lean ====
section
/-! DEFINITION. The round function of CORE and its inverse, on words of `w` bits (R13, R14, R74, R76). `+` and `-` on
`BitVec w` are `add_w` and `sub_w` of R14: they keep the low `w` bits. -/

namespace Sys2Proof.Machine

/-- `rotr_w(x, r)` of R13: the amount acts modulo `w`. -/
def rotr (w : Nat) (x : BitVec w) (r : Nat) : BitVec w := (x >>> (r % w)) ||| (x <<< (w - r % w))

/-- `rotl_w(x, r)` of R13: the amount acts modulo `w`. -/
def rotl (w : Nat) (x : BitVec w) (r : Nat) : BitVec w := (x <<< (r % w)) ||| (x >>> (w - r % w))

/-- `Fwd_{w,a,b}(u, l, k)` of R74: the new lower word uses the new upper word. -/
def fwd (w a b : Nat) (u l k : BitVec w) : BitVec w × BitVec w :=
  let u' := (rotr w u a + l) ^^^ k
  (u', rotl w l b ^^^ u')

/-- `Inv_{w,a,b}(u', l', k)` of R76, the true inverse that 90_conflicts.md C1 chooses. -/
def inv (w a b : Nat) (u' l' k : BitVec w) : BitVec w × BitVec w :=
  let l := rotr w (u' ^^^ l') b
  (rotl w ((u' ^^^ k) - l) a, l)

end Sys2Proof.Machine
end

