-- ==== Sys2Proof/Machine/Schedule.lean ====
section
/-! DEFINITION. The two key schedules: the primary one (R65 to R68) and V1's (R96). -/

namespace Sys2Proof.Machine

/-- The two sequences of the primary schedule: the auxiliary sequence L and the round keys (R65). -/
structure ScheduleSeqs (w : Nat) where
  aux : List (BitVec w)
  keys : List (BitVec w)
  deriving DecidableEq, Repr

/-- Iteration `i`: `(L[i+m-1], rk[i+1]) <- Fwd(L[i], rk[i], i)`, each output appended to its sequence (R65, R68). -/
def scheduleStep (w a b : Nat) (q : ScheduleSeqs w) (i : Nat) : ScheduleSeqs w :=
  let p := fwd w a b (q.aux.getD i 0) (q.keys.getD i 0) (BitVec.ofNat w i)
  ⟨q.aux ++ [p.1], q.keys ++ [p.2]⟩

/-- The schedule from the key words: word 0 seeds the round keys, the others seed L, and the iterations 0 to R-2 follow
(R65, R67; 90_conflicts.md C3). -/
def expandKey (w a b rounds : Nat) (words : List (BitVec w)) : List (BitVec w) :=
  ((List.range (rounds - 1)).foldl (scheduleStep w a b) ⟨words.tail, words.take 1⟩).keys

/-- `KeySchedule(cfg, key)` of R65. -/
def keySchedule (c : CipherConfig) (key : KeyReg) : List (BitVec c.w) :=
  expandKey c.w c.alpha c.beta c.rounds (keyWords c.w c.ks key)

/-- The state of the V1 schedule: the key words as they now stand, and the round keys given out so far (R96). -/
structure V1ScheduleSeqs (bits : Nat) where
  words : List (BitVec bits)
  out : List (BitVec bits)
  deriving DecidableEq, Repr

/-- Round `i` of R96: the word `i mod n` is consumed, then replaced by the upper output of the round function, with the next
word below it and the index, reduced modulo 2^bits, as its key. -/
def v1ScheduleStep (bits n rr rl : Nat) (q : V1ScheduleSeqs bits) (i : Nat) : V1ScheduleSeqs bits :=
  let j := i % n
  let wj := q.words.getD j 0
  let p := fwd bits rr rl wj (q.words.getD ((j + 1) % n) 0) (BitVec.ofNat bits i)
  ⟨q.words.set j p.1, q.out ++ [wj]⟩

/-- `V1Schedule(bits, n, R, rr, rl, K)` of R96. -/
def v1Schedule (bits n rounds rr rl : Nat) (words : List (BitVec bits)) : List (BitVec bits) :=
  ((List.range rounds).foldl (v1ScheduleStep bits n rr rl) ⟨words, []⟩).out

end Sys2Proof.Machine
end

