-- ==== Sys2Proof/Machine/Codec.lean ====
section
/-! DEFINITION. The block codec: the fold of the round function over a schedule, forward to encrypt and in reverse to
decrypt (R83, R84), shared by the primary engine and V1 (R80, R98). -/

namespace Sys2Proof.Machine

/-- The forward fold: one round a key, in the order of the schedule (R83, R101). -/
def encryptWords (w a b : Nat) (keys : List (BitVec w)) (p : BitVec w × BitVec w) : BitVec w × BitVec w :=
  keys.foldl (fun q k => fwd w a b q.1 q.2 k) p

/-- The inverse fold over the reversed schedule; each round consumes the one before's output (R84, R102). -/
def decryptWords (w a b : Nat) (keys : List (BitVec w)) (p : BitVec w × BitVec w) : BitVec w × BitVec w :=
  keys.reverse.foldl (fun q k => inv w a b q.1 q.2 k) p

/-- Split, encrypt, join (R83, R101). -/
def encryptBlock (w a b : Nat) (keys : List (BitVec w)) (x : Block) : Block :=
  join (encryptWords w a b keys (split w x))

/-- Split, decrypt, join (R84, R102). -/
def decryptBlock (w a b : Nat) (keys : List (BitVec w)) (x : Block) : Block :=
  join (decryptWords w a b keys (split w x))

end Sys2Proof.Machine
end

