-- ==== Sys2Proof/Machine/Primary.lean ====
section
/-! DEFINITION. The commands of the primary engine: KEYLOAD (R69, R70), ENCRYPT (R85, R87) and DECRYPT (R86, R87). -/

namespace Sys2Proof.Machine

/-- KEYLOAD's accept check (R69). -/
def checkKeyload (s : State) : Option ErrorCode :=
  match resolveConfig s with
  | .ok _ => none
  | .error e => some e

/-- `Effect(KEYLOAD)` (R70): every field of `acfg` and every entry of `rk` is rewritten (R71). -/
def effectKeyload (s : State) : Except Fault State :=
  match resolveConfig s with
  | .ok c => .ok { s with acfg := latchedConfig c, rk := keyFile 34 (keySchedule c s.key), keyed := true }
  | .error _ => .error (.completionUnchecked .keyload)

/-- The accept check of ENCRYPT and DECRYPT (R87). -/
def checkKeyed (s : State) : Option ErrorCode := if s.keyed then none else some .notKeyed

/-- The round keys of the primary instance, as words of `acfg.w` bits (R83). -/
def primaryKeys (s : State) : List (BitVec s.acfg.w.toNat) := roundKeys s.acfg.w.toNat s.acfg.rounds.toNat s.rk

/-- `Effect(ENCRYPT)` (R85), on the low `acfg.bs` bits of DIN (R82). -/
def effectEncrypt (s : State) : Except Fault State :=
  .ok { s with dout := encryptBlock s.acfg.w.toNat s.acfg.alpha.toNat s.acfg.beta.toNat (primaryKeys s)
                         (truncBlock s.acfg.bs.toNat s.din) }

/-- `Effect(DECRYPT)` (R86), on the low `acfg.bs` bits of DIN (R82). -/
def effectDecrypt (s : State) : Except Fault State :=
  .ok { s with dout := decryptBlock s.acfg.w.toNat s.acfg.alpha.toNat s.acfg.beta.toNat (primaryKeys s)
                         (truncBlock s.acfg.bs.toNat s.din) }

/-- KEYLOAD (R69, R70). -/
def execKeyload (s : State) : Host.Outcome State Fault Refusal := runCommand .keyload checkKeyload effectKeyload s

/-- ENCRYPT (R85, R87). -/
def execEncrypt (s : State) : Host.Outcome State Fault Refusal := runCommand .encrypt checkKeyed effectEncrypt s

/-- DECRYPT (R86, R87). -/
def execDecrypt (s : State) : Host.Outcome State Fault Refusal := runCommand .decrypt checkKeyed effectDecrypt s

end Sys2Proof.Machine
end

