-- ==== Sys2Proof/Machine/Variant.lean ====
section
/-! DEFINITION. The commands of the generalized variant V1: V1_KEYLOAD (R93, R94, R97), V1_ENCRYPT (R101, R103) and
V1_DECRYPT (R102, R103). -/

namespace Sys2Proof.Machine

/-- V1_KEYLOAD's accept check (R94). -/
def checkV1Keyload (s : State) : Option ErrorCode := if v1ParamsLegal s then none else some .v1InvalidParam

/-- What V1_KEYLOAD latches into `v1_acfg`: the fields as written, the rotation counts unreduced (R97, R99). -/
def v1Latched (s : State) : V1ActiveConfig :=
  ⟨s.v1cfg0.wordBits, s.v1cfg0.nkeys, s.v1cfg0.rounds, s.v1cfg1.rotR, s.v1cfg1.rotL⟩

/-- The round-key file of a V1 configuration and a key: the schedule's words, zero-extended, and 0 above them (R95 to R97). -/
def v1KeyFile (c : V1ActiveConfig) (key : KeyReg) : Vector StoredKey 64 :=
  keyFile 64 (v1Schedule c.wordBits.toNat c.nkeys.toNat c.rounds.toNat c.rotR.toNat c.rotL.toNat
    (v1KeyWords c.wordBits.toNat c.nkeys.toNat key))

/-- `Effect(V1_KEYLOAD)` (R97). -/
def effectV1Keyload (s : State) : Except Fault State :=
  if v1ParamsLegal s then
    .ok { s with v1Acfg := v1Latched s, v1Rk := v1KeyFile (v1Latched s) s.key, v1Keyed := true }
  else .error (.completionUnchecked .v1Keyload)

/-- The accept check of V1_ENCRYPT and V1_DECRYPT; the primary `keyed` bit is not consulted (R103). -/
def checkV1Keyed (s : State) : Option ErrorCode := if s.v1Keyed then none else some .v1NotKeyed

/-- The round keys of the V1 instance, as words of `v1_acfg.word_bits` bits (R101). -/
def v1Keys (s : State) : List (BitVec s.v1Acfg.wordBits.toNat) :=
  roundKeys s.v1Acfg.wordBits.toNat s.v1Acfg.rounds.toNat s.v1Rk

/-- `Effect(V1_ENCRYPT)` (R101), on the low 2·bits bits of DIN (R100). -/
def effectV1Encrypt (s : State) : Except Fault State :=
  .ok { s with dout := encryptBlock s.v1Acfg.wordBits.toNat s.v1Acfg.rotR.toNat s.v1Acfg.rotL.toNat (v1Keys s)
                         (truncBlock (2 * s.v1Acfg.wordBits.toNat) s.din) }

/-- `Effect(V1_DECRYPT)` (R102), on the low 2·bits bits of DIN (R100). -/
def effectV1Decrypt (s : State) : Except Fault State :=
  .ok { s with dout := decryptBlock s.v1Acfg.wordBits.toNat s.v1Acfg.rotR.toNat s.v1Acfg.rotL.toNat (v1Keys s)
                         (truncBlock (2 * s.v1Acfg.wordBits.toNat) s.din) }

/-- V1_KEYLOAD (R93, R94, R97). -/
def execV1Keyload (s : State) : Host.Outcome State Fault Refusal :=
  runCommand .v1Keyload checkV1Keyload effectV1Keyload s

/-- V1_ENCRYPT (R101, R103). -/
def execV1Encrypt (s : State) : Host.Outcome State Fault Refusal :=
  runCommand .v1Encrypt checkV1Keyed effectV1Encrypt s

/-- V1_DECRYPT (R102, R103). -/
def execV1Decrypt (s : State) : Host.Outcome State Fault Refusal :=
  runCommand .v1Decrypt checkV1Keyed effectV1Decrypt s

end Sys2Proof.Machine
end

