-- ==== Sys2Proof/Machine/Dispatch.lean ====
section
/-! DEFINITION. One arm for each command: what CORE does with it in a state, its accept or its completion (R47, R51, log 4). -/

namespace Sys2Proof.Machine

def exec (i : Instr) (s : State) : Host.Outcome State Fault Refusal :=
  match i with
  | .keyload => Sys2Proof.Machine.execKeyload s
  | .encrypt => Sys2Proof.Machine.execEncrypt s
  | .decrypt => Sys2Proof.Machine.execDecrypt s
  | .clear => Sys2Proof.Machine.execClear s
  | .v1Keyload => Sys2Proof.Machine.execV1Keyload s
  | .v1Encrypt => Sys2Proof.Machine.execV1Encrypt s
  | .v1Decrypt => Sys2Proof.Machine.execV1Decrypt s
  | .v1Clear => Sys2Proof.Machine.execV1Clear s

end Sys2Proof.Machine
end

