-- ==== Sys2Proof/Machine/Bus.lean ====
section
/-! DEFINITION. The register window: which register stands at an offset (R38), `MemRead` (R39) and `MemWrite` (R40), what one
input does, and when the command in flight completes (R46, R134). -/

namespace Sys2Proof.Machine

/-- The offset of a register (10_state.md section 2, R38). -/
def regOffset : Reg → Offset
  | .id => 0x00
  | .cmd => 0x04
  | .status => 0x08
  | .irqEn => 0x0C
  | .config => 0x10
  | .v1Cfg0 => 0x14
  | .v1Cfg1 => 0x18
  | .key j => BitVec.ofNat 8 (0x20 + 4 * j.val)
  | .din j => BitVec.ofNat 8 (0x40 + 4 * j.val)
  | .dout j => BitVec.ofNat 8 (0x50 + 4 * j.val)
  | .acfg0 => 0x60
  | .acfg1 => 0x64
  | .v1Acfg0 => 0x68
  | .v1Acfg1 => 0x6C
  | .tableCount => 0x70
  | .table i => BitVec.ofNat 8 (0x80 + 4 * i.val)

/-- Every register of the map (R38). -/
def allRegs : List Reg :=
  [.id, .cmd, .status, .irqEn, .config, .v1Cfg0, .v1Cfg1]
    ++ (List.finRange 8).map .key ++ (List.finRange 4).map .din ++ (List.finRange 4).map .dout
    ++ [.acfg0, .acfg1, .v1Acfg0, .v1Acfg1, .tableCount] ++ (List.finRange 10).map .table

/-- The register at an offset; `none` is a reserved offset (R41). -/
def regAt (a : Offset) : Option Reg := allRegs.find? (fun r => regOffset r == a)

/-- The layout of ACFG0, shared by the TABLE registers (R31, R34): keySize, rounds, blockSize. -/
def sizesWord (ks : BitVec 9) (rounds bs : BitVec 8) : BusWord := 0#7 ++ ks ++ rounds ++ bs

/-- The layout of V1_CFG0, shared by V1_ACFG0 (R25, R33). -/
def v1ParamsWord (rounds : BitVec 7) (nkeys : BitVec 3) (wordBits : BitVec 7) : BusWord :=
  0#9 ++ rounds ++ 0#5 ++ nkeys ++ 0#1 ++ wordBits

/-- The layout of V1_CFG1, shared by V1_ACFG1 (R26, R33). -/
def v1RotWord (rotL rotR : BitVec 6) : BusWord := 0#18 ++ rotL ++ 0#2 ++ rotR

/-- TABLEi (R34). -/
def tableWordAt (i : Nat) : BusWord :=
  match configTable[i]? with
  | some r => sizesWord (BitVec.ofNat 9 r.ks) (BitVec.ofNat 8 r.rounds) (BitVec.ofNat 8 r.bs)
  | none => 0

/-- What a register reads (R39). CMD and the key registers are write-only and read 0 (R21, R27). -/
def readReg (r : Reg) (s : State) : BusWord :=
  match r with
  | .id => Config.idValue
  | .cmd => 0
  | .status => statusWord s
  | .irqEn => irqEnWord s.irqEn
  | .config => sizesWord s.config.keySize 0 s.config.blockSize
  | .v1Cfg0 => v1ParamsWord s.v1cfg0.rounds s.v1cfg0.nkeys s.v1cfg0.wordBits
  | .v1Cfg1 => v1RotWord s.v1cfg1.rotL s.v1cfg1.rotR
  | .key _ => 0
  | .din j => getWord s.din j.val
  | .dout j => getWord s.dout j.val
  | .acfg0 => sizesWord s.acfg.ks s.acfg.rounds s.acfg.bs
  | .acfg1 => 0#12 ++ s.acfg.beta ++ 0#4 ++ s.acfg.alpha ++ s.acfg.w
  | .v1Acfg0 => v1ParamsWord s.v1Acfg.rounds s.v1Acfg.nkeys s.v1Acfg.wordBits
  | .v1Acfg1 => v1RotWord s.v1Acfg.rotL s.v1Acfg.rotR
  | .tableCount => BitVec.ofNat 32 Config.numConfigs
  | .table i => tableWordAt i.val

/-- The argument registers, whose writes are dropped while busy (R43). -/
def isArgument : Reg → Bool
  | .cmd | .config | .v1Cfg0 | .v1Cfg1 | .key _ | .din _ => true
  | .id | .status | .irqEn | .dout _ | .acfg0 | .acfg1 | .v1Acfg0 | .v1Acfg1 | .tableCount | .table _ => false

/-- `Accept(v)` in an idle state (R47): the word is decoded, an illegal one raises ILLEGAL_COMMAND, and a command is run. -/
def acceptWord (v : BusWord) (s : State) : Host.Outcome State Fault Refusal :=
  match decode v with
  | .ok c => exec c s
  | .error _ => .next (raise .illegalCommand (clearResult s))

/-- What a write of `v` that is performed does to a register (R40). Bits on reserved positions are discarded, and a
read-only register ignores it. -/
def performWrite (r : Reg) (v : BusWord) (s : State) : Host.Outcome State Fault Refusal :=
  match r with
  | .cmd => acceptWord v s
  | .status => .next (acknowledge v s)
  | .irqEn => .next { s with irqEn := irqEnOf v }
  | .config => .next { s with config := ⟨v.extractLsb' 0 8, v.extractLsb' 16 9⟩ }
  | .v1Cfg0 => .next { s with v1cfg0 := ⟨v.extractLsb' 0 7, v.extractLsb' 8 3, v.extractLsb' 16 7⟩ }
  | .v1Cfg1 => .next { s with v1cfg1 := ⟨v.extractLsb' 0 6, v.extractLsb' 8 6⟩ }
  | .key j => .next { s with key := setWord s.key j.val v }
  | .din j => .next { s with din := setWord s.din j.val v }
  | .id | .dout _ | .acfg0 | .acfg1 | .v1Acfg0 | .v1Acfg1 | .tableCount | .table _ => .next s

/-- A write to a register: dropped with OVR when it is an argument register and CORE is busy, else performed (R40, R43). -/
def writeReg (r : Reg) (v : BusWord) (s : State) : Host.Outcome State Fault Refusal :=
  if isArgument r && busy s then .next (dropWrite s) else performWrite r v s

/-- The refusal of an access that CORE does not define, if it is one (R42, log 7). -/
def accessRefusal (a : Offset) (size : AccessSize) : Option Refusal :=
  if size ≠ .word then some .narrowAccess
  else if Offset.aligned a then none
  else some .misalignedAccess

/-- `MemRead(a, 32)` (R39): the value, with no effect on the state. A reserved offset reads 0 (R41). -/
def memRead (a : Offset) (size : AccessSize) (s : State) : Except Refusal BusWord :=
  match accessRefusal a size with
  | some r => .error r
  | none =>
    match regAt a with
    | some r => .ok (readReg r s)
    | none => .ok 0

/-- `MemWrite(a, 32, v)` (R40), one atomic step. A write to a reserved offset has no effect (R41). -/
def memWrite (a : Offset) (size : AccessSize) (v : BusWord) (s : State) : Host.Outcome State Fault Refusal :=
  match accessRefusal a size with
  | some r => .refused r
  | none =>
    match regAt a with
    | some r => writeReg r v s
    | none => .next s

/-- The host's `rd`: the value read is the host's from now on (R55, log 2). -/
def hostRead (a : Offset) (size : AccessSize) (s : State) : Host.Outcome State Fault Refusal :=
  match memRead a size s with
  | .ok v => .next (observe v s)
  | .error r => .refused r

/-- One `rd` of the host's `poll`, its value observed like that of any other: the poll is over when the bits under the mask are
the value, and else it stands again before the other inputs (R36, R55, log 2, log 11). -/
def hostPoll (a : Offset) (mask value : BusWord) (s : State) : Host.Outcome State Fault Refusal :=
  match memRead a .word s with
  | .ok v =>
    .next { observe v s with inputs := if v &&& mask = value then s.inputs else .poll a mask value :: s.inputs }
  | .error r => .refused r

/-- What one input does, in a state whose `inputs` are those after it (R40, R39, R55, R125). -/
def performInput (x : Input) (s : State) : Host.Outcome State Fault Refusal :=
  match x with
  | .write a size v => memWrite a size v s
  | .read a size => hostRead a size s
  | .poll a mask value => hostPoll a mask value s
  | .rst => .next (resetCore s)

/-- The next input, if there is one; else nothing happens (R46, log 5). -/
def hostTurn (s : State) : Host.Outcome State Fault Refusal :=
  match s.inputs with
  | [] => .next s
  | x :: rest => performInput x { s with inputs := rest }

/-- Whether the command in flight completes in this step: its drawn number of host accesses has been made, or the host has
none left (R134, R138, log 1). -/
def completionDue (s : State) : Bool := s.latencyLeft == 0 || s.inputs.isEmpty

/-- The state in which the next input is the write of the table word `w` to CMD and CORE is idle, so that the write is
accepted (R47, log 5). -/
def placeCommand (s : State) (nbits w : Nat) : State :=
  { s with pending := none, inputs := .write (regOffset .cmd) .word (commandWord nbits w) :: s.inputs }

end Sys2Proof.Machine
end

