-- ==== Sys2Proof/Machine/Step.lean ====
section
/-! DEFINITION. One step of CORE and its host (R46, R137): the completion of the command in flight, or the host's next
input. -/

namespace Sys2Proof.Machine

/-- With a command in flight, its completion when it is due, else one input (R46, R51, R134). With none, one input. -/
def step (s : State) : Host.Outcome State Fault Refusal :=
  match s.pending with
  | some c => if completionDue s then exec c s else hostTurn { s with latencyLeft := s.latencyLeft - 1 }
  | none => hostTurn s

/-- `s` with the command word `w` where the next step takes it from: the host's next write to CMD, in an idle CORE (log 5). -/
def State.withFetchWord (s : State) (nbits w : Nat) : State := placeCommand s nbits w

end Sys2Proof.Machine
end

