-- ==== Sys2Proof/Safety.lean ====
section
/-! DEFINITION. What a safe run of CORE is: the accept checks and the effects as one table each (R51, R52), the coherence every step keeps, the duty
of the host (R42, R137), and the end of a run (R138). -/

namespace Sys2Proof.Safety

open Sys2Proof.Machine

/-- `AcceptCheck(c)` of R52: `none` is OK. -/
def acceptCheck (c : Instr) (s : State) : Option ErrorCode :=
  match c with
  | .keyload => checkKeyload s
  | .encrypt | .decrypt => checkKeyed s
  | .clear | .v1Clear => checkNothing s
  | .v1Keyload => checkV1Keyload s
  | .v1Encrypt | .v1Decrypt => checkV1Keyed s

/-- `Effect(c)` of R51: the effect each command's completion has (R48's table). -/
def completionEffect (c : Instr) (s : State) : Except Fault State :=
  match c with
  | .keyload => effectKeyload s
  | .encrypt => effectEncrypt s
  | .decrypt => effectDecrypt s
  | .clear => effectClear s
  | .v1Keyload => effectV1Keyload s
  | .v1Encrypt => effectV1Encrypt s
  | .v1Decrypt => effectV1Decrypt s
  | .v1Clear => effectV1Clear s

/-- ERRCODE is NONE exactly when ERR = 0 (R22, R113). -/
def StatusCoherent (s : State) : Prop := s.err = s.errcode.isSome

/-- A command in flight was accepted with DONE and ERR cleared, and its accept check still passes (R47, R51). -/
def SequencerCoherent (s : State) : Prop :=
  ∀ c, s.pending = some c → s.done = false ∧ s.err = false ∧ acceptCheck c s = none

/-- Without a primary instance `acfg` and `rk` are 0; with one they are what a KEYLOAD of some row of the table and some key
latches (R31, R32, R70). -/
def PrimaryCoherent (s : State) : Prop :=
  (s.keyed = false → s.acfg = ActiveConfig.zero ∧ s.rk = Vector.replicate 34 0) ∧
  (s.keyed = true → ∃ r ∈ configTable, ∃ k : KeyReg,
    s.acfg = latchedConfig (configOf r) ∧ s.rk = keyFile 34 (keySchedule (configOf r) k))

/-- The fields of `v1_acfg` are in the ranges of R92. -/
def v1AcfgLegal (c : V1ActiveConfig) : Bool := v1Legal c.wordBits.toNat c.nkeys.toNat c.rounds.toNat

/-- Without a V1 instance `v1_acfg` and `v1_rk` are 0; with one they are what a V1_KEYLOAD of legal parameters and some key
latches (R33, R97). -/
def V1Coherent (s : State) : Prop :=
  (s.v1Keyed = false → s.v1Acfg = V1ActiveConfig.zero ∧ s.v1Rk = Vector.replicate 64 0) ∧
  (s.v1Keyed = true → v1AcfgLegal s.v1Acfg = true ∧ ∃ k : KeyReg, s.v1Rk = v1KeyFile s.v1Acfg k)

/-- The coherence of a state: what the spec says holds between its elements in every reachable state. -/
structure Coherent (s : State) : Prop where
  status : StatusCoherent s
  sequencer : SequencerCoherent s
  primary : PrimaryCoherent s
  v1 : V1Coherent s

/-- The host keeps its first duty: every access still to come is an aligned 32-bit one (R42, R137). -/
def HostKeepsDuty (s : State) : Prop := ∀ x ∈ s.inputs, x.wf = true

/-- A run is over: the host has made its last access and no command is in flight (R138). -/
def Ended (s : State) : Prop := s.inputs = [] ∧ s.pending = none

end Sys2Proof.Safety
end

