-- ==== Sys2Proof/Certificates/Slice0/Obligations.lean ====
section
/-! DEFINITION. The statements for the provers, and before them the spec's pseudocode written out over the natural numbers, as
R12 has it, against which the statements hold the model's bit-vector functions and the registers' values. -/

namespace Sys2Proof.Pseudocode

open Sys2Proof.Machine

/-- `mask(n)` (R12). -/
def mask (n : Nat) : Nat := 2 ^ n - 1

/-- `rotr_w(x, r)` (R13). -/
def rotr (w x r : Nat) : Nat := ((x >>> (r % w)) ||| (x <<< (w - r % w))) &&& mask w

/-- `rotl_w(x, r)` (R13). -/
def rotl (w x r : Nat) : Nat := ((x <<< (r % w)) ||| (x >>> (w - r % w))) &&& mask w

/-- `add_w(a, b)` (R14). -/
def addW (w a b : Nat) : Nat := (a + b) % 2 ^ w

/-- `sub_w(a, b)` (R14), on the integers. -/
def subW (w a b : Nat) : Nat := (((a : Int) - (b : Int) + 2 ^ w) % 2 ^ w).toNat

/-- `Fwd_{w,a,b}(u, l, k)` (R74). -/
def fwd (w a b u l k : Nat) : Nat × Nat :=
  let t := addW w (rotr w u a) l
  let u' := t ^^^ k
  (u', rotl w l b ^^^ u')

/-- `Inv_{w,a,b}(u', l', k)` (R76). -/
def inv (w a b u' l' k : Nat) : Nat × Nat :=
  let s := u' ^^^ l'
  let l := rotr w s b
  let d := subW w (u' ^^^ k) l
  (rotl w d a, l)

/-- `Split_w(x)` (R81). -/
def split (w x : Nat) : Nat × Nat := ((x >>> w) &&& mask w, x &&& mask w)

/-- `Join_w(upper, lower)` (R81). -/
def join (w : Nat) (p : Nat × Nat) : Nat := (p.1 <<< w) ||| p.2

/-- `EncryptBlock` (R83), with the round-key file as a function of the index. -/
def encryptBlock (w a b rounds : Nat) (rk : Nat → Nat) (x : Nat) : Nat :=
  join w ((List.range rounds).foldl (fun p i => fwd w a b p.1 p.2 (rk i &&& mask w)) (split w x))

/-- `DecryptBlock` (R84): the same indices, downwards. -/
def decryptBlock (w a b rounds : Nat) (rk : Nat → Nat) (x : Nat) : Nat :=
  join w ((List.range rounds).reverse.foldl (fun p i => inv w a b p.1 p.2 (rk i &&& mask w)) (split w x))

/-- `word[j]` of R65: the truncated key, cut into `w`-bit words. -/
def keyWord (w ks key j : Nat) : Nat := ((key % 2 ^ ks) >>> (j * w)) &&& mask w

/-- `KeySchedule` (R65), its arrays `L` and `rk` as functions of the index, and each assignment an update. -/
def keySchedule (w ks rounds a b key : Nat) : Nat → Nat :=
  ((List.range (rounds - 1)).foldl
    (fun (q : (Nat → Nat) × (Nat → Nat)) i =>
      let p := fwd w a b (q.1 i) (q.2 i) i
      (Function.update q.1 (i + ks / w - 1) p.1, Function.update q.2 (i + 1) p.2))
    ((fun j => if j + 1 < ks / w then keyWord w ks key (j + 1) else 0),
     (fun i => if i = 0 then keyWord w ks key 0 else 0))).2

/-- `K[j]` of R95: key[64j + bits - 1 : 64j]. -/
def v1KeyWord (bits key j : Nat) : Nat := (key >>> (64 * j)) % 2 ^ bits

/-- `V1Schedule` (R96), its arrays `W` and `out` as functions of the index. -/
def v1Schedule (bits n rounds rr rl key : Nat) : Nat → Nat :=
  ((List.range rounds).foldl
    (fun (q : (Nat → Nat) × (Nat → Nat)) i =>
      let j := i % n
      let p := fwd bits rr rl (q.1 j) (q.1 ((j + 1) % n)) (i % 2 ^ bits)
      (Function.update q.1 j p.1, Function.update q.2 i (q.1 j)))
    ((fun j => if j < n then v1KeyWord bits key j else 0), fun _ => (0 : Nat))).2

/-- R57's table: blockSize, keySize, rounds. -/
def table : List (Nat × Nat × Nat) :=
  [(32, 64, 22), (48, 72, 22), (48, 96, 23), (64, 96, 26), (64, 128, 27), (96, 96, 28), (96, 144, 29), (128, 128, 32),
   (128, 192, 33), (128, 256, 34)]

/-- `AcceptCheck(c)` (R52, R69, R87, R94, R103) as the code of R109; 0 is OK. -/
def acceptCheck (c : Instr) (s : State) : Nat :=
  match c with
  | .keyload =>
    if s.config.blockSize.toNat ∉ [32, 48, 64, 96, 128] then 1
    else if (s.config.blockSize.toNat, s.config.keySize.toNat) ∉ table.map (fun r => (r.1, r.2.1)) then 2
    else 0
  | .encrypt | .decrypt => if s.keyed = false then 4 else 0
  | .clear | .v1Clear => 0
  | .v1Keyload =>
    if s.v1cfg0.wordBits.toNat < 1 ∨ 64 < s.v1cfg0.wordBits.toNat ∨ s.v1cfg0.nkeys.toNat < 1 ∨ 4 < s.v1cfg0.nkeys.toNat ∨
      s.v1cfg0.rounds.toNat < 1 ∨ 64 < s.v1cfg0.rounds.toNat then 5
    else 0
  | .v1Encrypt | .v1Decrypt => if s.v1Keyed = false then 6 else 0

/-- The value of one status bit. -/
def bit (b : Bool) : Nat := if b then 1 else 0

/-- The code of the error in ERRCODE (R109). -/
def codeOf : Option ErrorCode → Nat
  | none => 0
  | some .invalidBlockSize => 1
  | some .invalidKeySize => 2
  | some .illegalCommand => 3
  | some .notKeyed => 4
  | some .v1InvalidParam => 5
  | some .v1NotKeyed => 6

/-- TABLE0 to TABLE9 (R34). -/
def tableValues : List Nat :=
  [0x00401620, 0x00481630, 0x00601730, 0x00601A40, 0x00801B40, 0x00601C60, 0x00901D60, 0x00802080, 0x00C02180, 0x01002280]

/-- The value `MemRead(a, 32)` returns (R39), at an aligned offset. -/
def memRead (s : State) (a : Nat) : Nat :=
  if a = 0x00 then 0x53504B01
  else if a = 0x04 then 0
  else if a = 0x08 then
    (if s.pending = none then 0 else 1) ||| bit s.done <<< 1 ||| bit s.err <<< 2 ||| bit s.ovr <<< 3 ||| bit s.keyed <<< 4
      ||| bit s.v1Keyed <<< 5 ||| codeOf s.errcode <<< 8
  else if a = 0x0C then bit s.irqEn.doneIe + 2 * bit s.irqEn.errIe + 4 * bit s.irqEn.ovrIe
  else if a = 0x10 then s.config.keySize.toNat <<< 16 ||| s.config.blockSize.toNat
  else if a = 0x14 then s.v1cfg0.rounds.toNat <<< 16 ||| s.v1cfg0.nkeys.toNat <<< 8 ||| s.v1cfg0.wordBits.toNat
  else if a = 0x18 then s.v1cfg1.rotL.toNat <<< 8 ||| s.v1cfg1.rotR.toNat
  else if 0x20 ≤ a ∧ a ≤ 0x3C then 0
  else if 0x40 ≤ a ∧ a ≤ 0x4C then (s.din.toNat >>> (32 * ((a - 0x40) / 4))) % 2 ^ 32
  else if 0x50 ≤ a ∧ a ≤ 0x5C then (s.dout.toNat >>> (32 * ((a - 0x50) / 4))) % 2 ^ 32
  else if a = 0x60 then s.acfg.ks.toNat <<< 16 ||| s.acfg.rounds.toNat <<< 8 ||| s.acfg.bs.toNat
  else if a = 0x64 then s.acfg.beta.toNat <<< 16 ||| s.acfg.alpha.toNat <<< 8 ||| s.acfg.w.toNat
  else if a = 0x68 then s.v1Acfg.rounds.toNat <<< 16 ||| s.v1Acfg.nkeys.toNat <<< 8 ||| s.v1Acfg.wordBits.toNat
  else if a = 0x6C then s.v1Acfg.rotL.toNat <<< 8 ||| s.v1Acfg.rotR.toNat
  else if a = 0x70 then 10
  else if 0x80 ≤ a ∧ a ≤ 0xA4 then tableValues.getD ((a - 0x80) / 4) 0
  else 0

end Sys2Proof.Pseudocode

namespace Sys2Proof.Terms

open Sys2Proof.Machine

/-- The value a register file holds at an index, 0 outside it. -/
def entry {n : Nat} (file : Vector StoredKey n) (i : Nat) : Nat := (file.toList.getD i 0).toNat

/-- `new` is `old` with its 32-bit register word `j` replaced by `v`, every other register word as before (R40, R45). -/
def WordReplaced {n : Nat} (old new : BitVec n) (j : Nat) (v : BusWord) : Prop :=
  ∀ i, i < n / 32 →
    (new.toNat >>> (32 * i)) % 2 ^ 32 = if i = j then v.toNat else (old.toNat >>> (32 * i)) % 2 ^ 32

/-- The commands of the primary engine (M = 0, R48). -/
def primaryCommands : List Instr := [.keyload, .encrypt, .decrypt, .clear]

/-- The commands of the V1 module (M = 1, R48). -/
def v1Commands : List Instr := [.v1Keyload, .v1Encrypt, .v1Decrypt, .v1Clear]

/-- In this step the command in flight completes (R51). -/
def CompletesNow (s : State) (c : Instr) : Prop := s.pending = some c ∧ completionDue s = true

/-- In this step the host's next input is performed, and `rest` are the inputs after it. -/
def HostTurnNow (s : State) (x : Input) (rest : List Input) : Prop :=
  s.inputs = x :: rest ∧ (s.pending = none ∨ completionDue s = false)

/-- In this step `rst` is asserted (R125). -/
def RstNow (s : State) : Prop := ∃ rest, HostTurnNow s .rst rest

/-- In this step the host makes a 32-bit write of `v` to offset `a` (R40). -/
def WriteNow (s : State) (a : Offset) (v : BusWord) : Prop := ∃ rest, HostTurnNow s (.write a .word v) rest

/-- The two states agree on all that R17 gives CORE: they may differ only in the model's own fields. -/
def SameCore (s t : State) : Prop :=
  { s with inputs := [], seen := [], latencyLeft := 0, draws := 0 } =
  { t with inputs := [], seen := [], latencyLeft := 0, draws := 0 }

end Sys2Proof.Terms

open Sys2Proof Sys2Proof.Machine Sys2Proof.Safety Sys2Proof.Terms

/-! ### The command word -/

/-- R48: the eight words, each decoding to its command, with bits 31:4 zero, M in bit 3 and F in bits 2:0. A sanity
statement. -/
def Obligations.TableWordsDecodeToTheirCommands : Prop :=
  (decode 0x00000001 = .ok .keyload ∧ decode 0x00000002 = .ok .encrypt ∧ decode 0x00000003 = .ok .decrypt ∧
    decode 0x00000004 = .ok .clear ∧ decode 0x00000009 = .ok .v1Keyload ∧ decode 0x0000000A = .ok .v1Encrypt ∧
    decode 0x0000000B = .ok .v1Decrypt ∧ decode 0x0000000C = .ok .v1Clear) ∧
  ∀ i, (encode i).toNat = (if i ∈ v1Commands then 8 else 0) +
    (if i = .keyload ∨ i = .v1Keyload then 1 else if i = .encrypt ∨ i = .v1Encrypt then 2
      else if i = .decrypt ∨ i = .v1Decrypt then 3 else 4)

/-- R49: a word decodes to a command exactly when it is the command's word in all 32 bits; every other word is illegal, and
written to CMD in an idle state it raises ILLEGAL_COMMAND and does nothing else. -/
def Obligations.DecodeAcceptsExactlyTheCommandWords : Prop :=
  ∀ v : BusWord,
    (∀ i, decode v = .ok i ↔ v = encode i) ∧
    (v.toNat ∉ [1, 2, 3, 4, 9, 10, 11, 12] →
      decode v = .error .illegal ∧
      ∀ s : State, s.pending = none →
        memWrite 0x04 .word v s = .next { s with done := false, err := true, errcode := some .illegalCommand })

/-! ### The step -/

/-- A step runs the decoded command: when CORE is idle and the host's next access writes the word of a command to CMD, the
step is `exec` of that command, with the access taken from the host's list. The list is the model's (log 2). -/
def Obligations.StepRunsTheDecodedCommand : Prop :=
  ∀ (s : State) (w : BusWord) (i : Instr) (rest : List Input),
    s.pending = none → s.inputs = .write 0x04 .word w :: rest → decode w = .ok i →
    step s = exec i { s with inputs := rest }

/-- A step with a command in flight is `exec` of that command when its completion is due, and else the host's next input, which
brings the completion one access nearer (log 1). -/
def Obligations.StepPlacesTheCompletion : Prop :=
  ∀ (s : State) (c : Instr), s.pending = some c →
    (completionDue s = true → step s = exec c s) ∧
    (completionDue s = false → ∃ x rest, s.inputs = x :: rest ∧
      step s = performInput x { s with inputs := rest, latencyLeft := s.latencyLeft - 1 })

/-- The fetch the host of the pipeline uses: after `withFetchWord` the next step is `exec` of the command the word decodes to,
in the idle state (log 5). -/
def Obligations.FetchedWordIsRunByTheNextStep : Prop :=
  ∀ (s : State) (w : Nat) (i : Instr), decodeTableWord 32 w = some i →
    step (s.withFetchWord 32 w) = exec i { s with pending := none }

/-- A state in which the host has made its last access and no command is in flight stays as it is (R138, log 5). -/
def Obligations.EndedRunStays : Prop := ∀ s : State, Ended s → step s = .next s

/-! ### Accept -/

/-- R52, R113: in an idle state a command passes its check and is in flight, with DONE, ERR and ERRCODE cleared and nothing else
of CORE changed, or its check answers an error, which is raised, with nothing else of CORE changed. -/
def Obligations.AcceptFollowsTheChecks : Prop :=
  ∀ (c : Instr) (s : State), s.pending = none →
    (Pseudocode.acceptCheck c s = 0 → ∃ n d, exec c s =
      .next { s with done := false, err := false, errcode := none, pending := some c, latencyLeft := n, draws := d }) ∧
    (Pseudocode.acceptCheck c s ≠ 0 → ∃ e : ErrorCode, Pseudocode.codeOf (some e) = Pseudocode.acceptCheck c s ∧
      exec c s = .next { s with done := false, err := true, errcode := some e })

/-- `exec` of a command while another one is in flight is the dropped write of R43. That `exec` is asked this at all is the
model's choice (log 4). -/
def Obligations.AnotherCommandInFlightDropsTheWrite : Prop :=
  ∀ (c p : Instr) (s : State), s.pending = some p → p ≠ c → exec c s = .next { s with ovr := true }

/-- R108: no error is raised at completion. In every state with the command in flight, its completion leaves ERR and ERRCODE. -/
def Obligations.CompletionRaisesNoError : Prop :=
  ∀ (c : Instr) (s t : State), s.pending = some c → exec c s = .next t → t.err = s.err ∧ t.errcode = s.errcode ∧ t.done = true

/-! ### The resolver -/

/-- R57 to R60: `Resolve` on every pair of numbers, with every member of the configuration that R60 lists. -/
def Obligations.ResolveIsTheTable : Prop :=
  ∀ bs ks : Nat,
    (∀ rounds, (bs, ks, rounds) ∈ Pseudocode.table →
      ∃ c, resolve bs ks = .ok c ∧ c.bs = bs ∧ c.ks = ks ∧ c.w = bs / 2 ∧ c.rounds = rounds ∧
        c.alpha = (if bs = 32 then 7 else 8) ∧ c.beta = (if bs = 32 then 2 else 3) ∧ c.m = ks / (bs / 2) ∧
        c.wordMask = Pseudocode.mask (bs / 2) ∧ c.wordModulus = 2 ^ (bs / 2)) ∧
    (bs ∉ [32, 48, 64, 96, 128] → resolve bs ks = .error .invalidBlockSize) ∧
    (bs ∈ [32, 48, 64, 96, 128] → (∀ rounds, (bs, ks, rounds) ∉ Pseudocode.table) → resolve bs ks = .error .invalidKeySize)

/-- R63 and R64: what `Resolve` answers fits the datapath and the fields of CONFIG, and the key is a whole number of words, 2
to 4 of them, as many as R63 lists. -/
def Obligations.EveryConfigurationFits : Prop :=
  ∀ (bs ks : Nat) (c : CipherConfig), resolve bs ks = .ok c →
    c.w ≤ 64 ∧ c.bs ≤ 128 ∧ c.ks ≤ 256 ∧ c.rounds ≤ 34 ∧ c.ks < 2 ^ 9 ∧ c.bs < 2 ^ 8 ∧
    c.ks = c.m * c.w ∧ 2 ≤ c.m ∧ c.m ≤ 4 ∧
    (c.bs, c.ks, c.m) ∈ [(32, 64, 4), (48, 72, 3), (48, 96, 4), (64, 96, 3), (64, 128, 4), (96, 96, 2), (96, 144, 3),
      (128, 128, 2), (128, 192, 3), (128, 256, 4)]

/-! ### The round function -/

/-- R13: the two rotations are the rule's, for every width, word and amount, and a rotation by the width is the identity. -/
def Obligations.RotationsFollowTheRule : Prop :=
  ∀ (w : Nat) (x : BitVec w) (r : Nat), 1 ≤ w →
    (rotr w x r).toNat = Pseudocode.rotr w x.toNat r ∧ (rotl w x r).toNat = Pseudocode.rotl w x.toNat r ∧
    rotr w x w = x ∧ rotl w x w = x

/-- R74: the forward round is the rule's pseudocode, for every width, rotation amounts and words. -/
def Obligations.ForwardRoundFollowsThePseudocode : Prop :=
  ∀ (w a b : Nat) (u l k : BitVec w), 1 ≤ w →
    ((fwd w a b u l k).1.toNat, (fwd w a b u l k).2.toNat) = Pseudocode.fwd w a b u.toNat l.toNat k.toNat

/-- R76: the inverse round is the rule's pseudocode, for every width, rotation amounts and words. -/
def Obligations.InverseRoundFollowsThePseudocode : Prop :=
  ∀ (w a b : Nat) (u l k : BitVec w), 1 ≤ w →
    ((inv w a b u l k).1.toNat, (inv w a b u l k).2.toNat) = Pseudocode.inv w a b u.toNat l.toNat k.toNat

/-- R77: the two rounds undo each other. -/
def Obligations.RoundsUndoEachOther : Prop :=
  ∀ (w a b : Nat) (u l k : BitVec w), 1 ≤ w →
    inv w a b (fwd w a b u l k).1 (fwd w a b u l k).2 k = (u, l) ∧
    fwd w a b (inv w a b u l k).1 (inv w a b u l k).2 k = (u, l)

/-- R99: the rotation counts act modulo the width, a multiple of the width is the identity, no count is illegal, and V1_KEYLOAD
latches the counts as they were written. -/
def Obligations.V1RotationCountsActModuloTheWidth : Prop :=
  (∀ (bits : Nat) (x : BitVec bits) (r : Nat), 1 ≤ bits →
    rotr bits x r = rotr bits x (r % bits) ∧ rotl bits x r = rotl bits x (r % bits) ∧
    (r % bits = 0 → rotr bits x r = x ∧ rotl bits x r = x)) ∧
  (∀ s t : State, s.pending = some .v1Keyload → exec .v1Keyload s = .next t →
    t.v1Acfg.rotR = s.v1cfg1.rotR ∧ t.v1Acfg.rotL = s.v1cfg1.rotL) ∧
  ∀ (s : State) (c : V1Cfg1), s.pending = none → Pseudocode.acceptCheck .v1Keyload s = 0 →
    ∃ t, exec .v1Keyload { s with v1cfg1 := c } = .next t ∧ t.pending = some .v1Keyload ∧ t.err = false

/-! ### The key schedules -/

/-- R65: for every configuration of the table and every key, the schedule has exactly `rounds` words, and each is the word of
the rule's pseudocode. -/
def Obligations.KeyScheduleFollowsThePseudocode : Prop :=
  ∀ (bs ks : Nat) (c : CipherConfig) (key : KeyReg), resolve bs ks = .ok c →
    (keySchedule c key).length = c.rounds ∧
    ∀ i, i < c.rounds →
      ((keySchedule c key).getD i 0).toNat = Pseudocode.keySchedule c.w c.ks c.rounds c.alpha c.beta key.toNat i

/-- R95, R96: for every legal V1 configuration and every key, the V1 schedule has exactly R words, and each is the word of the
rule's pseudocode. -/
def Obligations.V1ScheduleFollowsThePseudocode : Prop :=
  ∀ (bits n rounds rr rl : Nat) (key : KeyReg), 1 ≤ bits → bits ≤ 64 → 1 ≤ n → n ≤ 4 →
    (v1Schedule bits n rounds rr rl (v1KeyWords bits n key)).length = rounds ∧
    ∀ i, i < rounds →
      ((v1Schedule bits n rounds rr rl (v1KeyWords bits n key)).getD i 0).toNat =
        Pseudocode.v1Schedule bits n rounds rr rl key.toNat i

/-- R73: two completions of KEYLOAD with the same CONFIG and the same low keySize bits of the key latch the same `acfg` and
`rk`. -/
def Obligations.KeyloadReadsOnlyConfigAndTheTruncatedKey : Prop :=
  ∀ s s' t t' : State, s.pending = some .keyload → s'.pending = some .keyload → s.config = s'.config →
    s.key.toNat % 2 ^ s.config.keySize.toNat = s'.key.toNat % 2 ^ s.config.keySize.toNat →
    exec .keyload s = .next t → exec .keyload s' = .next t' → t.acfg = t'.acfg ∧ t.rk = t'.rk

/-! ### The completions -/

/-- R70: the completion of KEYLOAD, for every row of the table and every key: `acfg` and every entry of `rk` are rewritten, and
nothing else of CORE changes but `pending` and DONE. -/
def Obligations.KeyloadCompletes : Prop :=
  ∀ (s : State) (bs ks rounds : Nat), s.pending = some .keyload → (bs, ks, rounds) ∈ Pseudocode.table →
    s.config.blockSize.toNat = bs → s.config.keySize.toNat = ks →
    ∃ (n : Nat) (a : ActiveConfig) (f : Vector StoredKey 34),
      exec .keyload s =
        .next { s with acfg := a, rk := f, keyed := true, pending := none, done := true, latencyLeft := n } ∧
      a.bs.toNat = bs ∧ a.ks.toNat = ks ∧ a.rounds.toNat = rounds ∧ a.w.toNat = bs / 2 ∧
      a.alpha.toNat = (if bs = 32 then 7 else 8) ∧ a.beta.toNat = (if bs = 32 then 2 else 3) ∧
      ∀ i, i < 34 → entry f i =
        if i < rounds then
          Pseudocode.keySchedule (bs / 2) ks rounds (if bs = 32 then 7 else 8) (if bs = 32 then 2 else 3) s.key.toNat i
        else 0

/-- R82, R83, R85: the completion of ENCRYPT in a coherent state: DOUT becomes the rule's `EncryptBlock` of the low `acfg.bs` bits
of DIN, which is a block of `acfg.bs` bits, and nothing else of CORE changes but `pending` and DONE. -/
def Obligations.EncryptCompletes : Prop :=
  ∀ s : State, Coherent s → s.pending = some .encrypt →
    ∃ (n : Nat) (v : Block),
      exec .encrypt s = .next { s with dout := v, pending := none, done := true, latencyLeft := n } ∧
      v.toNat = Pseudocode.encryptBlock s.acfg.w.toNat s.acfg.alpha.toNat s.acfg.beta.toNat s.acfg.rounds.toNat
        (entry s.rk) (s.din.toNat % 2 ^ s.acfg.bs.toNat) ∧
      v.toNat < 2 ^ s.acfg.bs.toNat

/-- R84, R86: the completion of DECRYPT in a coherent state. -/
def Obligations.DecryptCompletes : Prop :=
  ∀ s : State, Coherent s → s.pending = some .decrypt →
    ∃ (n : Nat) (v : Block),
      exec .decrypt s = .next { s with dout := v, pending := none, done := true, latencyLeft := n } ∧
      v.toNat = Pseudocode.decryptBlock s.acfg.w.toNat s.acfg.alpha.toNat s.acfg.beta.toNat s.acfg.rounds.toNat
        (entry s.rk) (s.din.toNat % 2 ^ s.acfg.bs.toNat)

/-- R105: the completion of CLEAR, in every state with it in flight, and that ENCRYPT and DECRYPT then raise NOT_KEYED. -/
def Obligations.ClearCompletes : Prop :=
  ∀ s : State, s.pending = some .clear →
    ∃ (n : Nat) (t : State), exec .clear s = .next t ∧
      t = { s with
            keyed := false, acfg := ⟨0, 0, 0, 0, 0, 0⟩, rk := Vector.replicate 34 0, key := 0, din := 0, dout := 0,
            pending := none, done := true, latencyLeft := n } ∧
      exec .encrypt t = .next { t with done := false, err := true, errcode := some .notKeyed } ∧
      exec .decrypt t = .next { t with done := false, err := true, errcode := some .notKeyed }

/-- R97 with R95 and R96: the completion of V1_KEYLOAD, for all legal parameters and every key: `v1_acfg` and every entry of
`v1_rk` are rewritten, and nothing else of CORE changes but `pending` and DONE. -/
def Obligations.V1KeyloadCompletes : Prop :=
  ∀ s : State, s.pending = some .v1Keyload → Pseudocode.acceptCheck .v1Keyload s = 0 →
    ∃ (n : Nat) (f : Vector StoredKey 64),
      exec .v1Keyload s =
        .next { s with
                v1Acfg := ⟨s.v1cfg0.wordBits, s.v1cfg0.nkeys, s.v1cfg0.rounds, s.v1cfg1.rotR, s.v1cfg1.rotL⟩, v1Rk := f,
                v1Keyed := true, pending := none, done := true, latencyLeft := n } ∧
      ∀ i, i < 64 → entry f i =
        if i < s.v1cfg0.rounds.toNat then
          Pseudocode.v1Schedule s.v1cfg0.wordBits.toNat s.v1cfg0.nkeys.toNat s.v1cfg0.rounds.toNat s.v1cfg1.rotR.toNat
            s.v1cfg1.rotL.toNat s.key.toNat i
        else 0

/-- R101: the completion of V1_ENCRYPT in a coherent state: the fold of `Fwd` over `v1_rk` on the low 2·bits bits of DIN. -/
def Obligations.V1EncryptCompletes : Prop :=
  ∀ s : State, Coherent s → s.pending = some .v1Encrypt →
    ∃ (n : Nat) (v : Block),
      exec .v1Encrypt s = .next { s with dout := v, pending := none, done := true, latencyLeft := n } ∧
      v.toNat = Pseudocode.encryptBlock s.v1Acfg.wordBits.toNat s.v1Acfg.rotR.toNat s.v1Acfg.rotL.toNat
        s.v1Acfg.rounds.toNat (entry s.v1Rk) (s.din.toNat % 2 ^ (2 * s.v1Acfg.wordBits.toNat))

/-- R102: the completion of V1_DECRYPT in a coherent state. -/
def Obligations.V1DecryptCompletes : Prop :=
  ∀ s : State, Coherent s → s.pending = some .v1Decrypt →
    ∃ (n : Nat) (v : Block),
      exec .v1Decrypt s = .next { s with dout := v, pending := none, done := true, latencyLeft := n } ∧
      v.toNat = Pseudocode.decryptBlock s.v1Acfg.wordBits.toNat s.v1Acfg.rotR.toNat s.v1Acfg.rotL.toNat
        s.v1Acfg.rounds.toNat (entry s.v1Rk) (s.din.toNat % 2 ^ (2 * s.v1Acfg.wordBits.toNat))

/-- R106: the completion of V1_CLEAR, in every state with it in flight, and that V1_ENCRYPT and V1_DECRYPT then raise
V1_NOT_KEYED. -/
def Obligations.V1ClearCompletes : Prop :=
  ∀ s : State, s.pending = some .v1Clear →
    ∃ (n : Nat) (t : State), exec .v1Clear s = .next t ∧
      t = { s with
            v1Keyed := false, v1Acfg := ⟨0, 0, 0, 0, 0⟩, v1Rk := Vector.replicate 64 0, key := 0, din := 0, dout := 0,
            pending := none, done := true, latencyLeft := n } ∧
      exec .v1Encrypt t = .next { t with done := false, err := true, errcode := some .v1NotKeyed } ∧
      exec .v1Decrypt t = .next { t with done := false, err := true, errcode := some .v1NotKeyed }

/-! ### The ciphers -/

/-- R81: `Split` and `Join` are the rule's, and joining a split block gives it back. -/
def Obligations.SplitAndJoinFollowTheRule : Prop :=
  ∀ (w : Nat) (x : Block), 1 ≤ w → w ≤ 64 →
    ((split w x).1.toNat, (split w x).2.toNat) = Pseudocode.split w x.toNat ∧
    (∀ u l : BitVec w, (join (u, l)).toNat = Pseudocode.join w (u.toNat, l.toNat)) ∧
    (x.toNat < 2 ^ (2 * w) → join (split w x) = x)

/-- R88: encryption and decryption undo each other, for every configuration, every key and every block. -/
def Obligations.PrimaryCipherRoundTrips : Prop :=
  ∀ (bs ks : Nat) (c : CipherConfig) (key : KeyReg) (x : Block), resolve bs ks = .ok c → x.toNat < 2 ^ bs →
    decryptBlock c.w c.alpha c.beta (keySchedule c key) (encryptBlock c.w c.alpha c.beta (keySchedule c key) x) = x ∧
    encryptBlock c.w c.alpha c.beta (keySchedule c key) (decryptBlock c.w c.alpha c.beta (keySchedule c key) x) = x

/-- R104: V1 encryption and decryption undo each other, for every legal V1 configuration, every key and every block. -/
def Obligations.V1CipherRoundTrips : Prop :=
  ∀ (bits n rounds rr rl : Nat) (key : KeyReg) (x : Block), 1 ≤ bits → bits ≤ 64 → 1 ≤ n → n ≤ 4 → 1 ≤ rounds →
    rounds ≤ 64 → rr ≤ 63 → rl ≤ 63 → x.toNat < 2 ^ (2 * bits) →
    decryptBlock bits rr rl (v1Schedule bits n rounds rr rl (v1KeyWords bits n key))
      (encryptBlock bits rr rl (v1Schedule bits n rounds rr rl (v1KeyWords bits n key)) x) = x ∧
    encryptBlock bits rr rl (v1Schedule bits n rounds rr rl (v1KeyWords bits n key))
      (decryptBlock bits rr rl (v1Schedule bits n rounds rr rl (v1KeyWords bits n key)) x) = x

/-- The round trip on the machine: the completion of ENCRYPT, its DOUT put into DIN, and the completion of DECRYPT give back the
low `acfg.bs` bits of the first DIN (R30, R88). -/
def Obligations.MachineRoundTrip : Prop :=
  ∀ s : State, Coherent s → s.pending = some .encrypt →
    ∃ t u, exec .encrypt s = .next t ∧ exec .decrypt { t with din := t.dout, pending := some .decrypt } = .next u ∧
      u.dout.toNat = s.din.toNat % 2 ^ s.acfg.bs.toNat

/-- R90: what ENCRYPT and DECRYPT put into DOUT depends only on `acfg`, `rk` and the low `acfg.bs` bits of DIN. -/
def Obligations.DataCommandsReadOnlyTheInstance : Prop :=
  ∀ (c : Instr) (s s' : State), c = .encrypt ∨ c = .decrypt → s.pending = some c → s'.pending = some c →
    s.acfg = s'.acfg → s.rk = s'.rk →
    s.din.toNat % 2 ^ s.acfg.bs.toNat = s'.din.toNat % 2 ^ s.acfg.bs.toNat →
    ∃ t t', exec c s = .next t ∧ exec c s' = .next t' ∧ t.dout = t'.dout

/-- R29: after an encryption or decryption completes, the bits of DOUT above the block size are 0. -/
def Obligations.DoutAboveTheBlockIsZero : Prop :=
  ∀ (c : Instr) (s t : State), Coherent s → s.pending = some c → exec c s = .next t →
    (c = .encrypt ∨ c = .decrypt → t.dout.toNat < 2 ^ t.acfg.bs.toNat) ∧
    (c = .v1Encrypt ∨ c = .v1Decrypt → t.dout.toNat < 2 ^ (2 * t.v1Acfg.wordBits.toNat))

/-! ### The register window -/

/-- R39: the value of a 32-bit read at every aligned offset, in every state, and that making the read changes nothing of CORE. -/
def Obligations.MemReadFollowsTheRegisterMap : Prop :=
  ∀ (a : Offset) (s : State), a.toNat % 4 = 0 →
    ∃ v t, memRead a .word s = .ok v ∧ v.toNat = Pseudocode.memRead s a.toNat ∧
      hostRead a .word s = .next t ∧ SameCore s t

/-- R40, R43: what a 32-bit write does at every aligned offset, in every state. -/
def Obligations.MemWriteFollowsTheRegisterMap : Prop :=
  ∀ (v : BusWord) (s : State),
    (memWrite 0x08 .word v s =
      .next { s with
              done := if v.getLsbD 1 then false else s.done, err := if v.getLsbD 2 then false else s.err,
              errcode := if v.getLsbD 2 then none else s.errcode, ovr := if v.getLsbD 3 then false else s.ovr }) ∧
    (∃ e, memWrite 0x0C .word v s = .next { s with irqEn := e } ∧
      Pseudocode.bit e.doneIe + 2 * Pseudocode.bit e.errIe + 4 * Pseudocode.bit e.ovrIe = v.toNat % 8) ∧
    (s.pending ≠ none → ∀ a : Offset, a.toNat % 4 = 0 →
      a.toNat ∈ [0x04, 0x10, 0x14, 0x18] ∨ (0x20 ≤ a.toNat ∧ a.toNat ≤ 0x3C) ∨ (0x40 ≤ a.toNat ∧ a.toNat ≤ 0x4C) →
      memWrite a .word v s = .next { s with ovr := true }) ∧
    (s.pending = none →
      memWrite 0x04 .word v s = acceptWord v s ∧
      (∃ c, memWrite 0x10 .word v s = .next { s with config := c } ∧
        c.blockSize.toNat = v.toNat % 2 ^ 8 ∧ c.keySize.toNat = (v.toNat >>> 16) % 2 ^ 9) ∧
      (∃ c, memWrite 0x14 .word v s = .next { s with v1cfg0 := c } ∧
        c.wordBits.toNat = v.toNat % 2 ^ 7 ∧ c.nkeys.toNat = (v.toNat >>> 8) % 2 ^ 3 ∧
        c.rounds.toNat = (v.toNat >>> 16) % 2 ^ 7) ∧
      (∃ c, memWrite 0x18 .word v s = .next { s with v1cfg1 := c } ∧
        c.rotR.toNat = v.toNat % 2 ^ 6 ∧ c.rotL.toNat = (v.toNat >>> 8) % 2 ^ 6) ∧
      (∀ j, j < 8 → ∃ k, memWrite (BitVec.ofNat 8 (0x20 + 4 * j)) .word v s = .next { s with key := k } ∧
        WordReplaced s.key k j v) ∧
      (∀ j, j < 4 → ∃ x, memWrite (BitVec.ofNat 8 (0x40 + 4 * j)) .word v s = .next { s with din := x } ∧
        WordReplaced s.din x j v)) ∧
    (∀ a : Offset, a.toNat % 4 = 0 →
      a.toNat ∉ [0x04, 0x08, 0x0C, 0x10, 0x14, 0x18] → ¬(0x20 ≤ a.toNat ∧ a.toNat ≤ 0x3C) →
      ¬(0x40 ≤ a.toNat ∧ a.toNat ≤ 0x4C) → memWrite a .word v s = .next s)

/-- R41: a reserved offset reads 0 and a write to it has no effect. -/
def Obligations.ReservedOffsetsReadZeroAndIgnoreWrites : Prop :=
  ∀ (a : Offset) (v : BusWord) (s : State), a.toNat % 4 = 0 →
    a.toNat = 0x1C ∨ a.toNat = 0x74 ∨ a.toNat = 0x78 ∨ a.toNat = 0x7C ∨ 0xA8 ≤ a.toNat →
    memRead a .word s = .ok 0 ∧ memWrite a .word v s = .next s

/-- R42: an access that is not 32 bits wide, or not at a multiple of 4, is refused, and every other access is not. -/
def Obligations.OnlyAlignedWordAccessesHaveAMeaning : Prop :=
  ∀ (a : Offset) (size : AccessSize) (v : BusWord) (s : State),
    (size ≠ .word ∨ a.toNat % 4 ≠ 0 →
      ∃ r, memRead a size s = .error r ∧ memWrite a size v s = .refused r) ∧
    (size = .word → a.toNat % 4 = 0 →
      (∃ x, memRead a size s = .ok x) ∧ ∀ r, memWrite a size v s ≠ .refused r)

/-- R43: while a command is in flight, a write to an argument register is dropped and sets OVR, also as a step of a run, where
nothing else changes but the host's list and the count to the completion (log 1, log 2). -/
def Obligations.BusyWritesAreDropped : Prop :=
  ∀ (s : State) (r : Reg) (v : BusWord) (rest : List Input), s.pending ≠ none → completionDue s = false →
    isArgument r = true → s.inputs = .write (regOffset r) .word v :: rest →
    ∃ n, step s = .next { s with ovr := true, inputs := rest, latencyLeft := n }

/-- R39: a read changes nothing of CORE; the host has the value R39 gives (the list of values is the model's, log 2). -/
def Obligations.ReadsHaveNoSideEffects : Prop :=
  ∀ (s : State) (a : Offset) (rest : List Input), a.toNat % 4 = 0 → HostTurnNow s (.read a .word) rest →
    ∃ t v, step s = .next t ∧ SameCore s t ∧ t.inputs = rest ∧ t.seen = s.seen ++ [v] ∧
      v.toNat = Pseudocode.memRead s a.toNat

/-- R55: a `poll` reads its register, changes nothing of CORE, gives the host the value read, and is over exactly when the bits
under the mask are the value. That it makes at least one read, and is over at the first with that value, is the model's choice
(log 11), and so are the lists (log 2). -/
def Obligations.PollRepeatsUntilTheValue : Prop :=
  ∀ (s : State) (a : Offset) (mask value : BusWord) (rest : List Input), a.toNat % 4 = 0 →
    HostTurnNow s (.poll a mask value) rest →
    ∃ t v, step s = .next t ∧ SameCore s t ∧ t.seen = s.seen ++ [v] ∧ v.toNat = Pseudocode.memRead s a.toNat ∧
      t.inputs = if Pseudocode.memRead s a.toNat &&& mask.toNat = value.toNat then rest else s.inputs

/-- R119: key material cannot be read back. Two states that differ only in `key`, `rk` and `v1_rk` answer every access of a read
alike and have the same interrupt output. -/
def Obligations.KeyMaterialCannotBeRead : Prop :=
  ∀ (s : State) (key : KeyReg) (rk : Vector StoredKey 34) (v1Rk : Vector StoredKey 64) (a : Offset) (size : AccessSize),
    memRead a size { s with key := key, rk := rk, v1Rk := v1Rk } = memRead a size s ∧
    irq { s with key := key, rk := rk, v1Rk := v1Rk } = irq s

/-! ### Reset and the interrupt -/

/-- R125, R127: an assertion of `rst` puts all of CORE in the reset state, from every state, also with a command in flight; in it
every element of R17 is at its reset value, every register reads what 10_state.md gives, and `irq` is 0. -/
def Obligations.ResetStateIsTheSpecs : Prop :=
  State.reset.config = ⟨128, 128⟩ ∧ State.reset.v1cfg0 = ⟨0, 0, 0⟩ ∧ State.reset.v1cfg1 = ⟨0, 0⟩ ∧
  State.reset.irqEn = ⟨false, false, false⟩ ∧ State.reset.key = 0 ∧ State.reset.din = 0 ∧ State.reset.dout = 0 ∧
  State.reset.done = false ∧ State.reset.err = false ∧ State.reset.ovr = false ∧ State.reset.errcode = none ∧
  State.reset.pending = none ∧ State.reset.keyed = false ∧ State.reset.acfg = ⟨0, 0, 0, 0, 0, 0⟩ ∧
  (∀ i, i < 34 → entry State.reset.rk i = 0) ∧ State.reset.v1Keyed = false ∧ State.reset.v1Acfg = ⟨0, 0, 0, 0, 0⟩ ∧
  (∀ i, i < 64 → entry State.reset.v1Rk i = 0) ∧
  (∀ a : Offset, a.toNat % 4 = 0 → memRead a .word State.reset = .ok (BitVec.ofNat 32
    (if a.toNat = 0x00 then 0x53504B01 else if a.toNat = 0x10 then 0x00800080 else if a.toNat = 0x70 then 10
      else if 0x80 ≤ a.toNat ∧ a.toNat ≤ 0xA4 then Pseudocode.tableValues.getD ((a.toNat - 0x80) / 4) 0 else 0))) ∧
  irq State.reset = false ∧
  ∀ s : State, ∃ t, performInput .rst s = .next t ∧ SameCore t State.reset

/-- R127, R125: as a step of a run, an assertion of `rst`, with or without a command in flight, puts all of CORE in its reset state
and abandons the command. That it is one of the host's inputs is the model's choice (log 2). -/
def Obligations.ResetAbandonsTheCommand : Prop :=
  ∀ (s : State) (rest : List Input), HostTurnNow s .rst rest →
    ∃ t, step s = .next t ∧ SameCore t State.reset ∧ t.inputs = rest

/-- R117: the interrupt output, and that the next accepted command clears its DONE and ERR parts. -/
def Obligations.IrqFollowsTheStatusBits : Prop :=
  (∀ s : State, irq s = true ↔
    (s.done = true ∧ s.irqEn.doneIe = true) ∨ (s.err = true ∧ s.irqEn.errIe = true) ∨
    (s.ovr = true ∧ s.irqEn.ovrIe = true)) ∧
  irq State.reset = false ∧
  ∀ (c : Instr) (s t : State), s.pending = none → Pseudocode.acceptCheck c s = 0 → exec c s = .next t →
    (irq t = true ↔ s.ovr = true ∧ s.irqEn.ovrIe = true)

/-! ### Whole-machine rules -/

/-- The coherence of a state (R22, R31, R32, R33, R51) holds after reset. -/
def Obligations.ResetIsCoherent : Prop := Coherent State.reset

/-- Every step keeps the coherence of a state, from every coherent state: the status bits and ERRCODE agree (R22), a command in
flight still passes the check it was accepted with (R51), and each instance is absent and zero or is what a key load latched
(R31, R32, R33). -/
def Obligations.StepKeepsCoherent : Prop := ∀ s t : State, Coherent s → step s = .next t → Coherent t

/-- No step from a coherent state faults, and none is refused while the host keeps its duty (R42, R51, R137). -/
def Obligations.CoherentStatesNeverStop : Prop :=
  ∀ s : State, Coherent s →
    (∀ f, step s ≠ .fault f) ∧ (HostKeepsDuty s → ∃ t, step s = .next t ∧ HostKeepsDuty t)

/-- R32: the entries of the primary round-key file: words of `acfg.w` bits up to `acfg.rounds`, and 0 above. -/
def Obligations.RoundKeyFileHoldsWords : Prop :=
  ∀ s : State, Coherent s →
    (s.keyed = true → ∀ i, i < 34 →
      (i < s.acfg.rounds.toNat → entry s.rk i < 2 ^ s.acfg.w.toNat) ∧ (s.acfg.rounds.toNat ≤ i → entry s.rk i = 0)) ∧
    (s.keyed = false → ∀ i, i < 34 → entry s.rk i = 0)

/-- R19: STATUS.BUSY reads 1 exactly while a command is in flight. Only an accepting write of CMD moves the sequencer from idle,
to the command it wrote, and only the completion and `rst` move it back. The step's place for a host access is the model's
(log 2). -/
def Obligations.OnlyAcceptCompletionAndResetMoveTheSequencer : Prop :=
  (∀ s : State, ((statusWord s).getLsbD 0 = true ↔ s.pending ≠ none)) ∧
  ∀ s t : State, step s = .next t → t.pending ≠ s.pending →
    (∃ c, s.pending = none ∧ t.pending = some c ∧ WriteNow s 0x04 (encode c) ∧ Pseudocode.acceptCheck c s = 0) ∨
    (∃ c, CompletesNow s c ∧ t.pending = none) ∨ (RstNow s ∧ t.pending = none)

/-- R29: only the completion of the four data commands and of the two clears changes DOUT, the clears to 0, and `rst` does. -/
def Obligations.OnlyDataCommandsClearsAndResetChangeDout : Prop :=
  ∀ s t : State, step s = .next t → t.dout ≠ s.dout →
    (∃ c ∈ [Instr.encrypt, .decrypt, .v1Encrypt, .v1Decrypt], CompletesNow s c) ∨
    ((CompletesNow s .clear ∨ CompletesNow s .v1Clear) ∧ t.dout = 0) ∨ (RstNow s ∧ t.dout = 0)

/-- R31, R35: only the completion of KEYLOAD and CLEAR changes the primary instance, and `rst` does. -/
def Obligations.OnlyKeyloadClearAndResetChangeTheInstance : Prop :=
  ∀ s t : State, step s = .next t → ¬(t.keyed = s.keyed ∧ t.acfg = s.acfg ∧ t.rk = s.rk) →
    (CompletesNow s .keyload ∧ t.keyed = true) ∨ (CompletesNow s .clear ∧ t.keyed = false) ∨ (RstNow s ∧ t.keyed = false)

/-- R33, R35: only the completion of V1_KEYLOAD and V1_CLEAR changes the V1 instance, and `rst` does. -/
def Obligations.OnlyV1KeyloadV1ClearAndResetChangeTheV1Instance : Prop :=
  ∀ s t : State, step s = .next t → ¬(t.v1Keyed = s.v1Keyed ∧ t.v1Acfg = s.v1Acfg ∧ t.v1Rk = s.v1Rk) →
    (CompletesNow s .v1Keyload ∧ t.v1Keyed = true) ∨ (CompletesNow s .v1Clear ∧ t.v1Keyed = false) ∨
    (RstNow s ∧ t.v1Keyed = false)

/-- R43, R116: OVR rises only by a dropped write, and falls only by a STATUS write with bit 3 set or by `rst`. -/
def Obligations.OvrIsSticky : Prop :=
  ∀ s t : State, step s = .next t →
    (s.ovr = false → t.ovr = true → s.pending ≠ none ∧ ∃ r v, isArgument r = true ∧ WriteNow s (regOffset r) v) ∧
    (s.ovr = true → t.ovr = false → (∃ v, WriteNow s 0x08 v ∧ v.getLsbD 3 = true) ∨ RstNow s)

/-- R22, R51, R116: DONE rises only at a completion; ERR rises only by a write of CMD in an idle state; and either falls only by a
STATUS write with its bit set, by a write of CMD in an idle state, or by `rst`. -/
def Obligations.DoneAndErrFollowTheCommands : Prop :=
  ∀ s t : State, step s = .next t →
    (s.done = false → t.done = true → ∃ c, CompletesNow s c) ∧
    (s.err = false → t.err = true → s.pending = none ∧ ∃ v, WriteNow s 0x04 v) ∧
    (s.done = true → t.done = false →
      (∃ v, WriteNow s 0x08 v ∧ v.getLsbD 1 = true) ∨ (s.pending = none ∧ ∃ v, WriteNow s 0x04 v) ∨ RstNow s) ∧
    (s.err = true → t.err = false →
      (∃ v, WriteNow s 0x08 v ∧ v.getLsbD 2 = true) ∨ (s.pending = none ∧ ∃ v, WriteNow s 0x04 v) ∨ RstNow s)

/-- R33: in every state, no primary command changes the V1 instance, and no V1 command changes the primary one. -/
def Obligations.ModulesDoNotDisturbEachOther : Prop :=
  ∀ (c : Instr) (s t : State), exec c s = .next t →
    (c ∈ primaryCommands → t.v1Keyed = s.v1Keyed ∧ t.v1Acfg = s.v1Acfg ∧ t.v1Rk = s.v1Rk) ∧
    (c ∈ v1Commands → t.keyed = s.keyed ∧ t.acfg = s.acfg ∧ t.rk = s.rk)

/-- The frame of every command, accepted, completed or turned away (R50): the configuration registers, IRQ_EN and the host are
never changed; `key` and `din` only by the clears; the instances and DOUT never at accept. -/
def Obligations.CommandsLeaveTheirFrame : Prop :=
  ∀ (c : Instr) (s t : State), exec c s = .next t →
    (t.config = s.config ∧ t.v1cfg0 = s.v1cfg0 ∧ t.v1cfg1 = s.v1cfg1 ∧ t.irqEn = s.irqEn ∧ t.inputs = s.inputs ∧
      t.seen = s.seen) ∧
    (c ≠ .clear → c ≠ .v1Clear → t.key = s.key ∧ t.din = s.din) ∧
    (s.pending ≠ some c → t.key = s.key ∧ t.din = s.din ∧ t.dout = s.dout ∧ t.keyed = s.keyed ∧ t.acfg = s.acfg ∧
      t.rk = s.rk ∧ t.v1Keyed = s.v1Keyed ∧ t.v1Acfg = s.v1Acfg ∧ t.v1Rk = s.v1Rk) ∧
    (s.pending = none ∨ s.pending = some c → t.ovr = s.ovr)

/-- R134: every accepted command completes after finitely many steps. From a coherent state with a command in flight, while the
host keeps its duty and no `rst` comes, the command has completed within `latencyLeft + 1` steps, whatever that count is
(log 1). -/
def Obligations.AcceptedCommandsComplete : Prop :=
  ∀ (s : State) (c : Instr), Coherent s → s.pending = some c → HostKeepsDuty s → .rst ∉ s.inputs →
    ∃ k t, k ≤ s.latencyLeft + 1 ∧ Sys2Proof.core.run k s = .next t ∧ t.pending = none ∧ t.done = true
end

