-- ==== Sys2Proof/Laws/State.lean ====
section
/-! SUPPORT. The small lemmas of State: one for each field under each shared update, so that no proof unfolds an update. -/

namespace Sys2Proof.Machine

section clearResultFields
variable (s : State)

@[simp] theorem clearResult_config : (clearResult s).config = s.config := rfl
@[simp] theorem clearResult_v1cfg0 : (clearResult s).v1cfg0 = s.v1cfg0 := rfl
@[simp] theorem clearResult_v1cfg1 : (clearResult s).v1cfg1 = s.v1cfg1 := rfl
@[simp] theorem clearResult_irqEn : (clearResult s).irqEn = s.irqEn := rfl
@[simp] theorem clearResult_key : (clearResult s).key = s.key := rfl
@[simp] theorem clearResult_din : (clearResult s).din = s.din := rfl
@[simp] theorem clearResult_dout : (clearResult s).dout = s.dout := rfl
@[simp] theorem clearResult_done : (clearResult s).done = false := rfl
@[simp] theorem clearResult_err : (clearResult s).err = false := rfl
@[simp] theorem clearResult_ovr : (clearResult s).ovr = s.ovr := rfl
@[simp] theorem clearResult_errcode : (clearResult s).errcode = none := rfl
@[simp] theorem clearResult_pending : (clearResult s).pending = s.pending := rfl
@[simp] theorem clearResult_keyed : (clearResult s).keyed = s.keyed := rfl
@[simp] theorem clearResult_acfg : (clearResult s).acfg = s.acfg := rfl
@[simp] theorem clearResult_rk : (clearResult s).rk = s.rk := rfl
@[simp] theorem clearResult_v1Keyed : (clearResult s).v1Keyed = s.v1Keyed := rfl
@[simp] theorem clearResult_v1Acfg : (clearResult s).v1Acfg = s.v1Acfg := rfl
@[simp] theorem clearResult_v1Rk : (clearResult s).v1Rk = s.v1Rk := rfl
@[simp] theorem clearResult_inputs : (clearResult s).inputs = s.inputs := rfl
@[simp] theorem clearResult_seen : (clearResult s).seen = s.seen := rfl
@[simp] theorem clearResult_latencyLeft : (clearResult s).latencyLeft = s.latencyLeft := rfl
@[simp] theorem clearResult_draws : (clearResult s).draws = s.draws := rfl

end clearResultFields

section raiseFields
variable (e : ErrorCode) (s : State)

@[simp] theorem raise_config : (raise e s).config = s.config := rfl
@[simp] theorem raise_v1cfg0 : (raise e s).v1cfg0 = s.v1cfg0 := rfl
@[simp] theorem raise_v1cfg1 : (raise e s).v1cfg1 = s.v1cfg1 := rfl
@[simp] theorem raise_irqEn : (raise e s).irqEn = s.irqEn := rfl
@[simp] theorem raise_key : (raise e s).key = s.key := rfl
@[simp] theorem raise_din : (raise e s).din = s.din := rfl
@[simp] theorem raise_dout : (raise e s).dout = s.dout := rfl
@[simp] theorem raise_done : (raise e s).done = s.done := rfl
@[simp] theorem raise_err : (raise e s).err = true := rfl
@[simp] theorem raise_ovr : (raise e s).ovr = s.ovr := rfl
@[simp] theorem raise_errcode : (raise e s).errcode = some e := rfl
@[simp] theorem raise_pending : (raise e s).pending = s.pending := rfl
@[simp] theorem raise_keyed : (raise e s).keyed = s.keyed := rfl
@[simp] theorem raise_acfg : (raise e s).acfg = s.acfg := rfl
@[simp] theorem raise_rk : (raise e s).rk = s.rk := rfl
@[simp] theorem raise_v1Keyed : (raise e s).v1Keyed = s.v1Keyed := rfl
@[simp] theorem raise_v1Acfg : (raise e s).v1Acfg = s.v1Acfg := rfl
@[simp] theorem raise_v1Rk : (raise e s).v1Rk = s.v1Rk := rfl
@[simp] theorem raise_inputs : (raise e s).inputs = s.inputs := rfl
@[simp] theorem raise_seen : (raise e s).seen = s.seen := rfl
@[simp] theorem raise_latencyLeft : (raise e s).latencyLeft = s.latencyLeft := rfl
@[simp] theorem raise_draws : (raise e s).draws = s.draws := rfl

end raiseFields

section acknowledgeFields
variable (v : BusWord) (s : State)

@[simp] theorem acknowledge_config : (acknowledge v s).config = s.config := rfl
@[simp] theorem acknowledge_v1cfg0 : (acknowledge v s).v1cfg0 = s.v1cfg0 := rfl
@[simp] theorem acknowledge_v1cfg1 : (acknowledge v s).v1cfg1 = s.v1cfg1 := rfl
@[simp] theorem acknowledge_irqEn : (acknowledge v s).irqEn = s.irqEn := rfl
@[simp] theorem acknowledge_key : (acknowledge v s).key = s.key := rfl
@[simp] theorem acknowledge_din : (acknowledge v s).din = s.din := rfl
@[simp] theorem acknowledge_dout : (acknowledge v s).dout = s.dout := rfl
@[simp] theorem acknowledge_done : (acknowledge v s).done = (s.done && !v.getLsbD 1) := rfl
@[simp] theorem acknowledge_err : (acknowledge v s).err = (s.err && !v.getLsbD 2) := rfl
@[simp] theorem acknowledge_ovr : (acknowledge v s).ovr = (s.ovr && !v.getLsbD 3) := rfl
@[simp] theorem acknowledge_errcode : (acknowledge v s).errcode = if v.getLsbD 2 then none else s.errcode := rfl
@[simp] theorem acknowledge_pending : (acknowledge v s).pending = s.pending := rfl
@[simp] theorem acknowledge_keyed : (acknowledge v s).keyed = s.keyed := rfl
@[simp] theorem acknowledge_acfg : (acknowledge v s).acfg = s.acfg := rfl
@[simp] theorem acknowledge_rk : (acknowledge v s).rk = s.rk := rfl
@[simp] theorem acknowledge_v1Keyed : (acknowledge v s).v1Keyed = s.v1Keyed := rfl
@[simp] theorem acknowledge_v1Acfg : (acknowledge v s).v1Acfg = s.v1Acfg := rfl
@[simp] theorem acknowledge_v1Rk : (acknowledge v s).v1Rk = s.v1Rk := rfl
@[simp] theorem acknowledge_inputs : (acknowledge v s).inputs = s.inputs := rfl
@[simp] theorem acknowledge_seen : (acknowledge v s).seen = s.seen := rfl
@[simp] theorem acknowledge_latencyLeft : (acknowledge v s).latencyLeft = s.latencyLeft := rfl
@[simp] theorem acknowledge_draws : (acknowledge v s).draws = s.draws := rfl

end acknowledgeFields

section dropWriteFields
variable (s : State)

@[simp] theorem dropWrite_config : (dropWrite s).config = s.config := rfl
@[simp] theorem dropWrite_v1cfg0 : (dropWrite s).v1cfg0 = s.v1cfg0 := rfl
@[simp] theorem dropWrite_v1cfg1 : (dropWrite s).v1cfg1 = s.v1cfg1 := rfl
@[simp] theorem dropWrite_irqEn : (dropWrite s).irqEn = s.irqEn := rfl
@[simp] theorem dropWrite_key : (dropWrite s).key = s.key := rfl
@[simp] theorem dropWrite_din : (dropWrite s).din = s.din := rfl
@[simp] theorem dropWrite_dout : (dropWrite s).dout = s.dout := rfl
@[simp] theorem dropWrite_done : (dropWrite s).done = s.done := rfl
@[simp] theorem dropWrite_err : (dropWrite s).err = s.err := rfl
@[simp] theorem dropWrite_ovr : (dropWrite s).ovr = true := rfl
@[simp] theorem dropWrite_errcode : (dropWrite s).errcode = s.errcode := rfl
@[simp] theorem dropWrite_pending : (dropWrite s).pending = s.pending := rfl
@[simp] theorem dropWrite_keyed : (dropWrite s).keyed = s.keyed := rfl
@[simp] theorem dropWrite_acfg : (dropWrite s).acfg = s.acfg := rfl
@[simp] theorem dropWrite_rk : (dropWrite s).rk = s.rk := rfl
@[simp] theorem dropWrite_v1Keyed : (dropWrite s).v1Keyed = s.v1Keyed := rfl
@[simp] theorem dropWrite_v1Acfg : (dropWrite s).v1Acfg = s.v1Acfg := rfl
@[simp] theorem dropWrite_v1Rk : (dropWrite s).v1Rk = s.v1Rk := rfl
@[simp] theorem dropWrite_inputs : (dropWrite s).inputs = s.inputs := rfl
@[simp] theorem dropWrite_seen : (dropWrite s).seen = s.seen := rfl
@[simp] theorem dropWrite_latencyLeft : (dropWrite s).latencyLeft = s.latencyLeft := rfl
@[simp] theorem dropWrite_draws : (dropWrite s).draws = s.draws := rfl

end dropWriteFields

section finishFields
variable (s : State)

@[simp] theorem finish_config : (finish s).config = s.config := rfl
@[simp] theorem finish_v1cfg0 : (finish s).v1cfg0 = s.v1cfg0 := rfl
@[simp] theorem finish_v1cfg1 : (finish s).v1cfg1 = s.v1cfg1 := rfl
@[simp] theorem finish_irqEn : (finish s).irqEn = s.irqEn := rfl
@[simp] theorem finish_key : (finish s).key = s.key := rfl
@[simp] theorem finish_din : (finish s).din = s.din := rfl
@[simp] theorem finish_dout : (finish s).dout = s.dout := rfl
@[simp] theorem finish_done : (finish s).done = true := rfl
@[simp] theorem finish_err : (finish s).err = s.err := rfl
@[simp] theorem finish_ovr : (finish s).ovr = s.ovr := rfl
@[simp] theorem finish_errcode : (finish s).errcode = s.errcode := rfl
@[simp] theorem finish_pending : (finish s).pending = none := rfl
@[simp] theorem finish_keyed : (finish s).keyed = s.keyed := rfl
@[simp] theorem finish_acfg : (finish s).acfg = s.acfg := rfl
@[simp] theorem finish_rk : (finish s).rk = s.rk := rfl
@[simp] theorem finish_v1Keyed : (finish s).v1Keyed = s.v1Keyed := rfl
@[simp] theorem finish_v1Acfg : (finish s).v1Acfg = s.v1Acfg := rfl
@[simp] theorem finish_v1Rk : (finish s).v1Rk = s.v1Rk := rfl
@[simp] theorem finish_inputs : (finish s).inputs = s.inputs := rfl
@[simp] theorem finish_seen : (finish s).seen = s.seen := rfl
@[simp] theorem finish_latencyLeft : (finish s).latencyLeft = 0 := rfl
@[simp] theorem finish_draws : (finish s).draws = s.draws := rfl

end finishFields

section zeroSharedFields
variable (s : State)

@[simp] theorem zeroShared_config : (zeroShared s).config = s.config := rfl
@[simp] theorem zeroShared_v1cfg0 : (zeroShared s).v1cfg0 = s.v1cfg0 := rfl
@[simp] theorem zeroShared_v1cfg1 : (zeroShared s).v1cfg1 = s.v1cfg1 := rfl
@[simp] theorem zeroShared_irqEn : (zeroShared s).irqEn = s.irqEn := rfl
@[simp] theorem zeroShared_key : (zeroShared s).key = 0 := rfl
@[simp] theorem zeroShared_din : (zeroShared s).din = 0 := rfl
@[simp] theorem zeroShared_dout : (zeroShared s).dout = 0 := rfl
@[simp] theorem zeroShared_done : (zeroShared s).done = s.done := rfl
@[simp] theorem zeroShared_err : (zeroShared s).err = s.err := rfl
@[simp] theorem zeroShared_ovr : (zeroShared s).ovr = s.ovr := rfl
@[simp] theorem zeroShared_errcode : (zeroShared s).errcode = s.errcode := rfl
@[simp] theorem zeroShared_pending : (zeroShared s).pending = s.pending := rfl
@[simp] theorem zeroShared_keyed : (zeroShared s).keyed = s.keyed := rfl
@[simp] theorem zeroShared_acfg : (zeroShared s).acfg = s.acfg := rfl
@[simp] theorem zeroShared_rk : (zeroShared s).rk = s.rk := rfl
@[simp] theorem zeroShared_v1Keyed : (zeroShared s).v1Keyed = s.v1Keyed := rfl
@[simp] theorem zeroShared_v1Acfg : (zeroShared s).v1Acfg = s.v1Acfg := rfl
@[simp] theorem zeroShared_v1Rk : (zeroShared s).v1Rk = s.v1Rk := rfl
@[simp] theorem zeroShared_inputs : (zeroShared s).inputs = s.inputs := rfl
@[simp] theorem zeroShared_seen : (zeroShared s).seen = s.seen := rfl
@[simp] theorem zeroShared_latencyLeft : (zeroShared s).latencyLeft = s.latencyLeft := rfl
@[simp] theorem zeroShared_draws : (zeroShared s).draws = s.draws := rfl

end zeroSharedFields

section acceptFields
variable (c : Instr) (v : Option ErrorCode) (s : State)

@[simp] theorem accept_config : (accept c v s).config = s.config := by cases v <;> rfl
@[simp] theorem accept_v1cfg0 : (accept c v s).v1cfg0 = s.v1cfg0 := by cases v <;> rfl
@[simp] theorem accept_v1cfg1 : (accept c v s).v1cfg1 = s.v1cfg1 := by cases v <;> rfl
@[simp] theorem accept_irqEn : (accept c v s).irqEn = s.irqEn := by cases v <;> rfl
@[simp] theorem accept_key : (accept c v s).key = s.key := by cases v <;> rfl
@[simp] theorem accept_din : (accept c v s).din = s.din := by cases v <;> rfl
@[simp] theorem accept_dout : (accept c v s).dout = s.dout := by cases v <;> rfl
@[simp] theorem accept_ovr : (accept c v s).ovr = s.ovr := by cases v <;> rfl
@[simp] theorem accept_keyed : (accept c v s).keyed = s.keyed := by cases v <;> rfl
@[simp] theorem accept_acfg : (accept c v s).acfg = s.acfg := by cases v <;> rfl
@[simp] theorem accept_rk : (accept c v s).rk = s.rk := by cases v <;> rfl
@[simp] theorem accept_v1Keyed : (accept c v s).v1Keyed = s.v1Keyed := by cases v <;> rfl
@[simp] theorem accept_v1Acfg : (accept c v s).v1Acfg = s.v1Acfg := by cases v <;> rfl
@[simp] theorem accept_v1Rk : (accept c v s).v1Rk = s.v1Rk := by cases v <;> rfl
@[simp] theorem accept_inputs : (accept c v s).inputs = s.inputs := by cases v <;> rfl
@[simp] theorem accept_seen : (accept c v s).seen = s.seen := by cases v <;> rfl
@[simp] theorem accept_done : (accept c v s).done = false := by cases v <;> rfl
@[simp] theorem accept_err : (accept c v s).err = v.isSome := by cases v <;> rfl
@[simp] theorem accept_errcode : (accept c v s).errcode = v := by cases v <;> rfl

/-- An accept that raises leaves the sequencer as it was; one that passes puts the command in flight. -/
theorem accept_pending : (accept c v s).pending = if v.isSome then s.pending else some c := by cases v <;> rfl

end acceptFields

section observeFields
variable (v : BusWord) (s : State)

@[simp] theorem observe_config : (observe v s).config = s.config := rfl
@[simp] theorem observe_v1cfg0 : (observe v s).v1cfg0 = s.v1cfg0 := rfl
@[simp] theorem observe_v1cfg1 : (observe v s).v1cfg1 = s.v1cfg1 := rfl
@[simp] theorem observe_irqEn : (observe v s).irqEn = s.irqEn := rfl
@[simp] theorem observe_key : (observe v s).key = s.key := rfl
@[simp] theorem observe_din : (observe v s).din = s.din := rfl
@[simp] theorem observe_dout : (observe v s).dout = s.dout := rfl
@[simp] theorem observe_done : (observe v s).done = s.done := rfl
@[simp] theorem observe_err : (observe v s).err = s.err := rfl
@[simp] theorem observe_ovr : (observe v s).ovr = s.ovr := rfl
@[simp] theorem observe_errcode : (observe v s).errcode = s.errcode := rfl
@[simp] theorem observe_pending : (observe v s).pending = s.pending := rfl
@[simp] theorem observe_keyed : (observe v s).keyed = s.keyed := rfl
@[simp] theorem observe_acfg : (observe v s).acfg = s.acfg := rfl
@[simp] theorem observe_rk : (observe v s).rk = s.rk := rfl
@[simp] theorem observe_v1Keyed : (observe v s).v1Keyed = s.v1Keyed := rfl
@[simp] theorem observe_v1Acfg : (observe v s).v1Acfg = s.v1Acfg := rfl
@[simp] theorem observe_v1Rk : (observe v s).v1Rk = s.v1Rk := rfl
@[simp] theorem observe_inputs : (observe v s).inputs = s.inputs := rfl
@[simp] theorem observe_seen : (observe v s).seen = s.seen ++ [v] := rfl
@[simp] theorem observe_latencyLeft : (observe v s).latencyLeft = s.latencyLeft := rfl
@[simp] theorem observe_draws : (observe v s).draws = s.draws := rfl

end observeFields

section resetFields
variable (s : State)

@[simp] theorem resetCore_config : (resetCore s).config = State.reset.config := rfl
@[simp] theorem resetCore_v1cfg0 : (resetCore s).v1cfg0 = State.reset.v1cfg0 := rfl
@[simp] theorem resetCore_v1cfg1 : (resetCore s).v1cfg1 = State.reset.v1cfg1 := rfl
@[simp] theorem resetCore_irqEn : (resetCore s).irqEn = State.reset.irqEn := rfl
@[simp] theorem resetCore_key : (resetCore s).key = State.reset.key := rfl
@[simp] theorem resetCore_din : (resetCore s).din = State.reset.din := rfl
@[simp] theorem resetCore_dout : (resetCore s).dout = State.reset.dout := rfl
@[simp] theorem resetCore_done : (resetCore s).done = State.reset.done := rfl
@[simp] theorem resetCore_err : (resetCore s).err = State.reset.err := rfl
@[simp] theorem resetCore_ovr : (resetCore s).ovr = State.reset.ovr := rfl
@[simp] theorem resetCore_errcode : (resetCore s).errcode = State.reset.errcode := rfl
@[simp] theorem resetCore_pending : (resetCore s).pending = State.reset.pending := rfl
@[simp] theorem resetCore_keyed : (resetCore s).keyed = State.reset.keyed := rfl
@[simp] theorem resetCore_acfg : (resetCore s).acfg = State.reset.acfg := rfl
@[simp] theorem resetCore_rk : (resetCore s).rk = State.reset.rk := rfl
@[simp] theorem resetCore_v1Keyed : (resetCore s).v1Keyed = State.reset.v1Keyed := rfl
@[simp] theorem resetCore_v1Acfg : (resetCore s).v1Acfg = State.reset.v1Acfg := rfl
@[simp] theorem resetCore_v1Rk : (resetCore s).v1Rk = State.reset.v1Rk := rfl
@[simp] theorem resetCore_inputs : (resetCore s).inputs = s.inputs := rfl
@[simp] theorem resetCore_seen : (resetCore s).seen = s.seen := rfl
@[simp] theorem resetCore_latencyLeft : (resetCore s).latencyLeft = State.reset.latencyLeft := rfl
@[simp] theorem resetCore_draws : (resetCore s).draws = s.draws := rfl

end resetFields

end Sys2Proof.Machine
end

