-- ==== Sys2Proof/Laws/Ops.lean ====
section
/-! SUPPORT. What the shared operations can do, said once: the life of a command (`runCommand`), and `exec` of any command
through its accept check and its effect. -/

namespace Sys2Proof.Machine

open Sys2Proof.Safety

section runCommand
variable {c p : Instr} {check : State → Option ErrorCode} {effect : State → Except Fault State} {s t u : State} {f : Fault}

theorem runCommand_idle (h : s.pending = none) : runCommand c check effect s = .next (accept c (check s) s) := by
  simp [runCommand, h]

theorem runCommand_completes (h : s.pending = some c) (hu : effect s = .ok u) :
    runCommand c check effect s = .next (finish u) := by
  simp [runCommand, h, complete, hu]

theorem runCommand_other (h : s.pending = some p) (hp : p ≠ c) :
    runCommand c check effect s = .next (dropWrite s) := by
  simp [runCommand, h, hp]

/-- All a command can do when it answers a next state. -/
theorem runCommand_next (h : runCommand c check effect s = .next t) :
    (s.pending = none ∧ t = accept c (check s) s) ∨
    (s.pending = some c ∧ ∃ u, effect s = .ok u ∧ t = finish u) ∨
    (∃ p, s.pending = some p ∧ p ≠ c ∧ t = dropWrite s) := by
  unfold runCommand at h
  split at h
  case h_1 hp => exact .inl ⟨hp, by simpa using h.symm⟩
  case h_2 p hp =>
    split at h
    case isTrue hc =>
      subst hc
      cases he : effect s with
      | ok u => exact .inr (.inl ⟨hp, u, rfl, by simpa [complete, he] using h.symm⟩)
      | error f => simp [complete, he] at h
    case isFalse hc => exact .inr (.inr ⟨p, hp, hc, by simpa using h.symm⟩)

/-- A command faults only at its completion, and only when its effect does. -/
theorem runCommand_fault (h : runCommand c check effect s = .fault f) : s.pending = some c ∧ effect s = .error f := by
  unfold runCommand at h
  split at h
  case h_1 => simp at h
  case h_2 p hp =>
    split at h
    case isTrue hc =>
      subst hc
      cases he : effect s with
      | ok u => simp [complete, he] at h
      | error g => exact ⟨hp, by simpa [complete, he] using h⟩
    case isFalse => simp at h

theorem runCommand_not_refused (r : Refusal) : runCommand c check effect s ≠ .refused r := by
  unfold runCommand complete
  split
  · simp
  · split
    · cases effect s <;> simp
    · simp

end runCommand

/-- Every arm of `exec` is the life of its command. -/
theorem exec_eq_runCommand (c : Instr) (s : State) :
    exec c s = runCommand c (acceptCheck c) (completionEffect c) s := by
  cases c <;> rfl

section effects
variable {c : Instr} {s u : State}

/-- What no effect changes: the argument registers but `key` and `din`, the status, the sequencer and the host. -/
theorem completionEffect_frame (h : completionEffect c s = .ok u) :
    u.config = s.config ∧ u.v1cfg0 = s.v1cfg0 ∧ u.v1cfg1 = s.v1cfg1 ∧ u.irqEn = s.irqEn ∧ u.done = s.done ∧
    u.err = s.err ∧ u.ovr = s.ovr ∧ u.errcode = s.errcode ∧ u.pending = s.pending ∧ u.inputs = s.inputs ∧
    u.seen = s.seen ∧ u.latencyLeft = s.latencyLeft ∧ u.draws = s.draws := by
  cases c with
  | keyload =>
    simp only [completionEffect, effectKeyload] at h
    split at h <;> simp at h
    subst h; simp
  | v1Keyload =>
    simp only [completionEffect, effectV1Keyload] at h
    split at h <;> simp at h
    subst h; simp
  | _ =>
    simp only [completionEffect, effectEncrypt, effectDecrypt, effectClear, effectV1Encrypt, effectV1Decrypt, effectV1Clear,
      Except.ok.injEq] at h
    subst h; simp

/-- An effect fails exactly where its accept check does, on a key load (log 8). -/
theorem completionEffect_ok_of_check (h : acceptCheck c s = none) : ∃ u, completionEffect c s = .ok u := by
  cases c with
  | keyload =>
    simp only [acceptCheck, checkKeyload] at h
    split at h <;> simp_all [completionEffect, effectKeyload]
  | v1Keyload => simp_all [acceptCheck, checkV1Keyload, completionEffect, effectV1Keyload]
  | _ => exact ⟨_, rfl⟩

/-- What each effect does to the instances, to `key`, `din` and `dout` (R50): the table of what a command writes. -/
theorem completionEffect_writes (h : completionEffect c s = .ok u) :
    (c ≠ .keyload → c ≠ .clear → u.keyed = s.keyed ∧ u.acfg = s.acfg ∧ u.rk = s.rk) ∧
    (c ≠ .v1Keyload → c ≠ .v1Clear → u.v1Keyed = s.v1Keyed ∧ u.v1Acfg = s.v1Acfg ∧ u.v1Rk = s.v1Rk) ∧
    (c ≠ .clear → c ≠ .v1Clear → u.key = s.key ∧ u.din = s.din) ∧
    (c = .keyload ∨ c = .v1Keyload → u.dout = s.dout) ∧ (c = .clear ∨ c = .v1Clear → u.dout = 0) ∧
    (c = .keyload → u.keyed = true) ∧ (c = .clear → u.keyed = false) ∧
    (c = .v1Keyload → u.v1Keyed = true) ∧ (c = .v1Clear → u.v1Keyed = false) := by
  cases c with
  | keyload =>
    simp only [completionEffect, effectKeyload] at h
    split at h <;> simp at h
    subst h; simp
  | v1Keyload =>
    simp only [completionEffect, effectV1Keyload] at h
    split at h <;> simp at h
    subst h; simp
  | _ =>
    simp only [completionEffect, effectEncrypt, effectDecrypt, effectClear, effectV1Encrypt, effectV1Decrypt, effectV1Clear,
      Except.ok.injEq] at h
    subst h; simp

/-- The accept checks read CONFIG, V1_CFG0 and the two keyed bits, and nothing else (R52). -/
theorem acceptCheck_congr (h1 : u.config = s.config) (h2 : u.v1cfg0 = s.v1cfg0) (h3 : u.keyed = s.keyed)
    (h4 : u.v1Keyed = s.v1Keyed) : acceptCheck c u = acceptCheck c s := by
  have hv : v1ParamsLegal u = v1ParamsLegal s := by simp only [v1ParamsLegal, v1BitsArg, v1KeysArg, v1RoundsArg, h2]
  cases c <;> simp only [acceptCheck, checkKeyload, resolveConfig, blockSizeArg, keySizeArg, checkKeyed, checkNothing,
    checkV1Keyload, checkV1Keyed, h1, h3, h4, hv]

end effects

end Sys2Proof.Machine
end

