-- ==== Sys2Proof/Laws/Bus.lean ====
section
/-! SUPPORT. What a bus access and an input can do, said once. -/

namespace Sys2Proof.Machine

open Sys2Proof.Safety

/-- Every register stands at its own offset. -/
theorem regAt_regOffset (r : Reg) : regAt (regOffset r) = some r := by
  rcases r with _ | _ | _ | _ | _ | _ | _ | j | j | j | _ | _ | _ | _ | _ | j
  case key => revert j; decide
  case din => revert j; decide
  case dout => revert j; decide
  case table => revert j; decide
  all_goals decide

/-- Every register's offset is aligned. -/
theorem regOffset_aligned (r : Reg) : Offset.aligned (regOffset r) = true := by
  rcases r with _ | _ | _ | _ | _ | _ | _ | j | j | j | _ | _ | _ | _ | _ | j
  case key => revert j; decide
  case din => revert j; decide
  case dout => revert j; decide
  case table => revert j; decide
  all_goals decide

/-- The register found at an offset is the one whose offset it is. -/
theorem regOffset_of_regAt {a : Offset} {r : Reg} (h : regAt a = some r) : regOffset r = a := by
  simpa using List.find?_some h

theorem accessRefusal_none {a : Offset} {size : AccessSize} :
    accessRefusal a size = none ↔ size = .word ∧ Offset.aligned a = true := by
  unfold accessRefusal
  split <;> simp_all

/-- A read of a register by its name. -/
theorem memRead_reg (r : Reg) (s : State) : memRead (regOffset r) .word s = .ok (readReg r s) := by
  simp [memRead, accessRefusal, regOffset_aligned, regAt_regOffset]

/-- A write of a register by its name. -/
theorem memWrite_reg (r : Reg) (v : BusWord) (s : State) : memWrite (regOffset r) .word v s = writeReg r v s := by
  simp [memWrite, accessRefusal, regOffset_aligned, regAt_regOffset]

section writes
variable {r : Reg} {v : BusWord} {s : State}

theorem acceptWord_ok {c : Instr} (h : decode v = .ok c) : acceptWord v s = exec c s := by simp [acceptWord, h]

theorem acceptWord_illegal (h : decode v = .error .illegal) :
    acceptWord v s = .next (raise .illegalCommand (clearResult s)) := by simp [acceptWord, h]

theorem writeReg_busy (h : s.pending ≠ none) (hr : isArgument r = true) : writeReg r v s = .next (dropWrite s) := by
  simp [writeReg, hr, busy, Option.isSome_iff_ne_none.2 h]

theorem writeReg_idle (h : s.pending = none) : writeReg r v s = performWrite r v s := by
  simp [writeReg, busy, h]

end writes

/-- All that one input can do to a state `s` whose `inputs` are those after it, one constructor for each kind of effect. -/
inductive InputEffect : Input → State → State → Prop where
  /-- A write to an argument register while busy. -/
  | dropped (r : Reg) (v : BusWord) (s : State) (hr : isArgument r = true) (hp : s.pending ≠ none) :
      InputEffect (.write (regOffset r) .word v) s (dropWrite s)
  /-- A command word written to CMD in an idle state. -/
  | accepted (c : Instr) (v : BusWord) (s : State) (hp : s.pending = none) (hd : decode v = .ok c) :
      InputEffect (.write (regOffset .cmd) .word v) s (accept c (acceptCheck c s) s)
  /-- Another word written to CMD in an idle state. -/
  | illegal (v : BusWord) (s : State) (hp : s.pending = none) (hd : decode v = .error .illegal) :
      InputEffect (.write (regOffset .cmd) .word v) s (raise .illegalCommand (clearResult s))
  | acknowledged (v : BusWord) (s : State) : InputEffect (.write (regOffset .status) .word v) s (acknowledge v s)
  | irqEn (v : BusWord) (s : State) :
      InputEffect (.write (regOffset .irqEn) .word v) s { s with irqEn := irqEnOf v }
  | config (x : ConfigReg) (v : BusWord) (s : State) (hp : s.pending = none) :
      InputEffect (.write (regOffset .config) .word v) s { s with config := x }
  | v1cfg0 (x : V1Cfg0) (v : BusWord) (s : State) (hp : s.pending = none) :
      InputEffect (.write (regOffset .v1Cfg0) .word v) s { s with v1cfg0 := x }
  | v1cfg1 (x : V1Cfg1) (v : BusWord) (s : State) (hp : s.pending = none) :
      InputEffect (.write (regOffset .v1Cfg1) .word v) s { s with v1cfg1 := x }
  | key (j : Fin 8) (v : BusWord) (s : State) (hp : s.pending = none) :
      InputEffect (.write (regOffset (.key j)) .word v) s { s with key := setWord s.key j.val v }
  | din (j : Fin 4) (v : BusWord) (s : State) (hp : s.pending = none) :
      InputEffect (.write (regOffset (.din j)) .word v) s { s with din := setWord s.din j.val v }
  /-- A write to a read-only register or a reserved offset. -/
  | nothing (x : Input) (s : State) : InputEffect x s s
  | read (a : Offset) (v : BusWord) (s : State) : InputEffect (.read a .word) s (observe v s)
  /-- The last read of a `poll`. -/
  | pollOver (a : Offset) (mask value v : BusWord) (s : State) : InputEffect (.poll a mask value) s (observe v s)
  /-- A read of a `poll` that goes on. -/
  | pollAgain (a : Offset) (mask value v : BusWord) (s : State) (ha : Offset.aligned a = true) :
      InputEffect (.poll a mask value) s { observe v s with inputs := .poll a mask value :: s.inputs }
  | rst (s : State) : InputEffect .rst s (resetCore s)

/-- A write that a register performs has one of the effects of an input. -/
theorem performWrite_effect {r : Reg} {v : BusWord} {s t : State} (hp : isArgument r = true → s.pending = none)
    (h : performWrite r v s = .next t) : InputEffect (.write (regOffset r) .word v) s t := by
  cases r with
  | cmd =>
    have hi := hp rfl
    simp only [performWrite, acceptWord] at h
    split at h
    case h_1 c hd =>
      rw [exec_eq_runCommand, runCommand_idle hi] at h
      cases h
      exact .accepted c v s hi hd
    case h_2 e hd =>
      cases e; cases h
      exact .illegal v s hi hd
  | status => cases h; exact .acknowledged v s
  | irqEn => cases h; exact .irqEn v s
  | config => cases h; exact .config _ v s (hp rfl)
  | v1Cfg0 => cases h; exact .v1cfg0 _ v s (hp rfl)
  | v1Cfg1 => cases h; exact .v1cfg1 _ v s (hp rfl)
  | key j => cases h; exact .key j v s (hp rfl)
  | din j => cases h; exact .din j v s (hp rfl)
  | _ => cases h; exact .nothing _ s

/-- Every input that answers a next state has one of the effects of `InputEffect`. -/
theorem performInput_effect {x : Input} {s t : State} (h : performInput x s = .next t) : InputEffect x s t := by
  cases x with
  | rst => cases h; exact .rst s
  | read a size =>
    simp only [performInput, hostRead, memRead] at h
    split at h <;> simp at h
    rename_i v hv
    split at hv <;> simp at hv
    rename_i ha
    obtain ⟨rfl, -⟩ := accessRefusal_none.1 ha
    subst h
    exact .read a v s
  | poll a mask value =>
    simp only [performInput, hostPoll, memRead] at h
    split at h <;> simp at h
    rename_i v hv
    split at hv <;> simp at hv
    rename_i ha
    split at h
    · subst h; exact .pollOver a mask value v s
    · subst h; exact .pollAgain a mask value v s (accessRefusal_none.1 ha).2
  | write a size v =>
    simp only [performInput, memWrite] at h
    split at h
    case h_1 => simp at h
    case h_2 ha =>
      obtain ⟨rfl, -⟩ := accessRefusal_none.1 ha
      split at h
      case h_2 => cases h; exact .nothing _ s
      case h_1 r hr =>
        obtain rfl := regOffset_of_regAt hr
        by_cases hb : isArgument r = true ∧ s.pending ≠ none
        · rw [writeReg_busy hb.2 hb.1] at h
          cases h
          exact .dropped r v s hb.1 hb.2
        · have hi : isArgument r = true → s.pending = none := fun hr => by_contra fun hp => hb ⟨hr, hp⟩
          refine performWrite_effect hi ?_
          by_cases hr : isArgument r = true
          · rwa [writeReg_idle (hi hr)] at h
          · simpa [writeReg, hr] using h

/-- A well-formed input never stops the step (R42, R137). -/
theorem performInput_runs {x : Input} (s : State) (hx : x.wf = true) : ∃ t, performInput x s = .next t := by
  cases x with
  | rst => exact ⟨_, rfl⟩
  | read a size =>
    simp only [Input.wf, Bool.and_eq_true, beq_iff_eq] at hx
    have ha := accessRefusal_none.2 hx
    cases hr : regAt a <;> simp [performInput, hostRead, memRead, ha, hr]
  | poll a mask value =>
    have ha : accessRefusal a .word = none := accessRefusal_none.2 ⟨rfl, hx⟩
    cases hr : regAt a <;> simp [performInput, hostPoll, memRead, ha, hr]
  | write a size v =>
    simp only [Input.wf, Bool.and_eq_true, beq_iff_eq] at hx
    have ha := accessRefusal_none.2 hx
    cases hr : regAt a with
    | none => exact ⟨s, by simp [performInput, memWrite, ha, hr]⟩
    | some r =>
      simp only [performInput, memWrite, ha, hr, writeReg]
      split
      case isTrue => exact ⟨_, rfl⟩
      case isFalse hb =>
        cases r with
        | cmd =>
          have hi : s.pending = none := by simpa [isArgument, busy] using hb
          simp only [performWrite, acceptWord]
          split
          · rw [exec_eq_runCommand, runCommand_idle hi]; exact ⟨_, rfl⟩
          · exact ⟨_, rfl⟩
        | _ => exact ⟨_, rfl⟩

end Sys2Proof.Machine
end

