-- ==== Sys2Proof/Laws/Step.lean ====
section
/-! SUPPORT. What one step can do, said once: a completion, an idle turn, or one input. -/

namespace Sys2Proof.Machine

open Sys2Proof.Safety

variable {s t : State} {c : Instr} {o : Host.Outcome State Fault Refusal}

theorem step_completes (h : s.pending = some c) (hd : completionDue s = true) : step s = exec c s := by
  simp [step, h, hd]

theorem step_idle (h : s.pending = none) : step s = hostTurn s := by simp [step, h]

theorem hostTurn_nil (h : s.inputs = []) : hostTurn s = .next s := by simp [hostTurn, h]

theorem hostTurn_cons {x : Input} {rest : List Input} (h : s.inputs = x :: rest) :
    hostTurn s = performInput x { s with inputs := rest } := by simp [hostTurn, h]

/-- All a step can do: complete the command in flight; do nothing, idle and with no input; or perform the next input, which
brings the completion of a command in flight one access nearer. -/
theorem step_cases (h : step s = o) :
    (∃ c, s.pending = some c ∧ completionDue s = true ∧ o = complete (completionEffect c s)) ∨
    (s.pending = none ∧ s.inputs = [] ∧ o = .next s) ∨
    (∃ x rest n, s.inputs = x :: rest ∧ (s.pending = none ∨ completionDue s = false) ∧
      o = performInput x { s with inputs := rest, latencyLeft := n }) := by
  subst h
  cases hp : s.pending with
  | none =>
    rw [step_idle hp]
    cases hi : s.inputs with
    | nil => exact .inr (.inl ⟨rfl, rfl, hostTurn_nil hi⟩)
    | cons x rest => exact .inr (.inr ⟨x, rest, s.latencyLeft, rfl, .inl rfl, by simp [hostTurn, hi, hp]⟩)
  | some c =>
    cases hd : completionDue s with
    | true =>
      refine .inl ⟨c, rfl, rfl, ?_⟩
      rw [step_completes hp hd, exec_eq_runCommand]
      simp [runCommand, hp]
    | false =>
      have hi : s.inputs ≠ [] := fun hi => by simp [completionDue, hi] at hd
      obtain ⟨x, rest, hi⟩ := List.exists_cons_of_ne_nil hi
      exact .inr (.inr ⟨x, rest, s.latencyLeft - 1, hi, .inr rfl, by simp [step, hp, hd, hostTurn, hi]⟩)

/-- A step that answers a next state is a completion, an idle turn, or the effect of the next input. -/
theorem step_next (h : step s = .next t) :
    (∃ c u, s.pending = some c ∧ completionDue s = true ∧ completionEffect c s = .ok u ∧ t = finish u) ∨
    (s.pending = none ∧ s.inputs = [] ∧ t = s) ∨
    (∃ x rest n, s.inputs = x :: rest ∧ (s.pending = none ∨ completionDue s = false) ∧
      InputEffect x { s with inputs := rest, latencyLeft := n } t) := by
  rcases step_cases h with ⟨c, hp, hd, ho⟩ | ⟨hp, hi, ho⟩ | ⟨x, rest, n, hi, hd, ho⟩
  · cases he : completionEffect c s with
    | ok u => exact .inl ⟨c, u, hp, hd, he, by simpa [complete, he] using ho⟩
    | error f => simp [complete, he] at ho
  · exact .inr (.inl ⟨hp, hi, by simpa using ho⟩)
  · exact .inr (.inr ⟨x, rest, n, hi, hd, performInput_effect ho.symm⟩)

/-- One step of a run that answers a next state. -/
theorem core_run_succ (k : Nat) (h : step s = .next t) : Sys2Proof.core.run (k + 1) s = Sys2Proof.core.run k t := by
  simp only [Host.Core.run]
  rw [show Sys2Proof.core.step s = .next t from h]

/-- The fetch of the next command: `withFetchWord` makes the next step run the command its word decodes to. -/
theorem step_withFetchWord {nbits w : Nat} (h : decodeTableWord nbits w = some c) :
    step (s.withFetchWord nbits w) = exec c { s with pending := none } := by
  have hd : decode (commandWord nbits w) = .ok c := by
    unfold decodeTableWord at h
    split at h <;> simp_all
  rw [step_idle rfl, hostTurn_cons rfl]
  show memWrite (regOffset .cmd) .word _ _ = _
  rw [memWrite_reg, writeReg_idle rfl]
  exact acceptWord_ok hd

end Sys2Proof.Machine
end

