-- ==== Sys2Proof/Laws/Coherence.lean ====
section
/-! SUPPORT. Which fields each part of a state's coherence reads, so that a state which keeps them keeps that part. -/

namespace Sys2Proof.Safety

open Sys2Proof.Machine

variable {s u : State}

theorem statusCoherent_congr (h1 : u.err = s.err) (h2 : u.errcode = s.errcode) :
    StatusCoherent u ↔ StatusCoherent s := by
  simp only [StatusCoherent, h1, h2]

theorem primaryCoherent_congr (h1 : u.keyed = s.keyed) (h2 : u.acfg = s.acfg) (h3 : u.rk = s.rk) :
    PrimaryCoherent u ↔ PrimaryCoherent s := by
  simp only [PrimaryCoherent, h1, h2, h3]

theorem v1Coherent_congr (h1 : u.v1Keyed = s.v1Keyed) (h2 : u.v1Acfg = s.v1Acfg) (h3 : u.v1Rk = s.v1Rk) :
    V1Coherent u ↔ V1Coherent s := by
  simp only [V1Coherent, h1, h2, h3]

/-- With no command in flight there is nothing the sequencer must keep. -/
theorem sequencerCoherent_idle (h : u.pending = none) : SequencerCoherent u := fun c hc => by simp [h] at hc

/-- A command in flight keeps its check while the fields the checks read keep their values, and DONE and ERR stay clear. -/
theorem sequencerCoherent_congr (hs : SequencerCoherent s) (hp : u.pending = s.pending)
    (hd : s.done = false → u.done = false) (he : s.err = false → u.err = false) (h1 : u.config = s.config)
    (h2 : u.v1cfg0 = s.v1cfg0) (h3 : u.keyed = s.keyed) (h4 : u.v1Keyed = s.v1Keyed) : SequencerCoherent u := by
  intro c hc
  obtain ⟨a, b, d⟩ := hs c (hp ▸ hc)
  exact ⟨hd a, he b, by rw [acceptCheck_congr h1 h2 h3 h4, d]⟩

end Sys2Proof.Safety
end

