-- ==== Sys2Proof/Laws/PerInstr.lean ====
section
/-! SUPPORT. Statements made of every command, one lemma for each constructor: a command is well formed, its word has bits
31:4 zero, and its word decodes to it (R48, R49). -/

namespace Sys2Proof.Laws.CommandWord

/-- The command is well formed, its word fits the format of R48, and the word decodes to the command. -/
def Statement (i : Instr) : Prop :=
  i.wf = true ∧ (encode i).extractLsb' 4 28 = 0 ∧ decode (encode i) = .ok i

theorem keyload : Statement .keyload := ⟨rfl, by decide, by decide⟩
theorem encrypt : Statement .encrypt := ⟨rfl, by decide, by decide⟩
theorem decrypt : Statement .decrypt := ⟨rfl, by decide, by decide⟩
theorem clear : Statement .clear := ⟨rfl, by decide, by decide⟩
theorem v1Keyload : Statement .v1Keyload := ⟨rfl, by decide, by decide⟩
theorem v1Encrypt : Statement .v1Encrypt := ⟨rfl, by decide, by decide⟩
theorem v1Decrypt : Statement .v1Decrypt := ⟨rfl, by decide, by decide⟩
theorem v1Clear : Statement .v1Clear := ⟨rfl, by decide, by decide⟩

end Sys2Proof.Laws.CommandWord
end

