-- ==== Sys2Proof/Machine/HostProgram.lean ====
section
/-! DEFINITION. Host programs (R55, R56): `wr`, `rd` and `poll` by register name, the STATUS masks, and the pseudo-instructions
that mirror SPK's API. A program is the list of accesses it makes. -/

namespace Sys2Proof.Machine.HostProgram

/-- `wr <reg>, <imm32>` (R55). -/
def wr (r : Reg) (v : BusWord) : Input := .write (regOffset r) .word v

/-- `wr CMD, <mnemonic>` (R55). -/
def wrCmd (c : Instr) : Input := wr .cmd (encode c)

/-- `rd <reg>` (R55). -/
def rd (r : Reg) : Input := .read (regOffset r) .word

/-- `poll <reg>, <mask>, <value>` (R55). -/
def poll (r : Reg) (mask value : BusWord) : Input := .poll (regOffset r) mask value

/-- The STATUS bit names of R55, as masks. -/
def maskBusy : BusWord := 0x001
def maskDone : BusWord := 0x002
def maskErr : BusWord := 0x004
def maskOvr : BusWord := 0x008
def maskKeyed : BusWord := 0x010
def maskV1Keyed : BusWord := 0x020
def maskErrcode : BusWord := 0xF00

/-- `poll STATUS, BUSY, 0` (R56). -/
def pollIdle : Input := poll .status maskBusy 0

/-- The eight writes of the key register (R56). -/
def wrKey (k : KeyReg) : List Input := (List.finRange 8).map (fun j => wr (.key j) (getWord k j.val))

/-- The four writes of DIN (R56). -/
def wrDin (x : Block) : List Input := (List.finRange 4).map (fun j => wr (.din j) (getWord x j.val))

/-- The four reads of DOUT (R56). -/
def rdDout : List Input := (List.finRange 4).map (fun j => rd (.dout j))

/-- `speck.new K, ks, bs` (R56). -/
def speckNew (k : KeyReg) (ks bs : BusWord) : List Input :=
  [wr .config ((ks <<< 16) ||| bs)] ++ wrKey k ++ [wrCmd .keyload, pollIdle, rd .status]

/-- `speck.enc P -> C` (R56). -/
def speckEnc (x : Block) : List Input := wrDin x ++ [wrCmd .encrypt, pollIdle] ++ rdDout

/-- `speck.dec C -> P` (R56). -/
def speckDec (x : Block) : List Input := wrDin x ++ [wrCmd .decrypt, pollIdle] ++ rdDout

/-- `speck.clear` (R56). -/
def speckClear : List Input := [wrCmd .clear, pollIdle]

/-- `v1.new K, bits, n, r, rr, rl` (R56). -/
def v1New (k : KeyReg) (bits n r rr rl : BusWord) : List Input :=
  [wr .v1Cfg0 ((r <<< 16) ||| (n <<< 8) ||| bits), wr .v1Cfg1 ((rl <<< 8) ||| rr)] ++ wrKey k ++ [wrCmd .v1Keyload, pollIdle]

/-- `v1.enc` (R56). -/
def v1Enc (x : Block) : List Input := wrDin x ++ [wrCmd .v1Encrypt, pollIdle] ++ rdDout

/-- `v1.dec` (R56). -/
def v1Dec (x : Block) : List Input := wrDin x ++ [wrCmd .v1Decrypt, pollIdle] ++ rdDout

/-- `v1.clear` (R56). -/
def v1Clear : List Input := [wrCmd .v1Clear, pollIdle]

end Sys2Proof.Machine.HostProgram
end

