-- ==== Sys2Proof/Tests/Slice0.lean ====
section
/-! SUPPORT. The tests: the well-formedness smoke, words decoded bit by bit, the worked examples of the spec (every expected
value is the spec's, under the rule or vector each docstring names), and one witness for each statement with hypotheses. -/

namespace Sys2Proof.Tests

open Sys2Proof Sys2Proof.Machine Sys2Proof.Safety Sys2Proof.Terms

/-! ### Small states -/

/-- What a read of a register gives in the state an outcome answers. -/
def readAfter (o : Host.Outcome State Fault Refusal) (r : Reg) : Option BusWord :=
  match o with
  | .next t => some (readReg r t)
  | .fault _ => none
  | .refused _ => none

/-- Whether an outcome is a next state. -/
def isNext (o : Host.Outcome State Fault Refusal) : Bool :=
  match o with
  | .next _ => true
  | .fault _ => false
  | .refused _ => false

/-- After reset, with command `c` in flight. -/
def inFlight (c : Instr) : State := { State.reset with pending := some c }

/-- CONFIG and key of Speck32/64 as the host writes them (E1). -/
def staged : State := { State.reset with config := ⟨32, 64⟩, key := 0x1918111009080100 }

/-- The row of Speck32/64. -/
def row32 : TableRow := ⟨32, 64, 22⟩

/-- After the KEYLOAD of E1. -/
def keyed32 : State :=
  { staged with
    keyed := true, acfg := latchedConfig (configOf row32),
    rk := keyFile 34 (keySchedule (configOf row32) 0x1918111009080100) }

/-- V1_CFG0, V1_CFG1 and key of R97 as the host writes them. -/
def v1Staged : State := { State.reset with v1cfg0 := ⟨8, 1, 5⟩, v1cfg1 := ⟨9, 1⟩, key := 0xAB }

/-- After the V1_KEYLOAD of R97. -/
def v1Keyed8 : State :=
  { v1Staged with v1Keyed := true, v1Acfg := v1Latched v1Staged, v1Rk := v1KeyFile (v1Latched v1Staged) 0xAB }

/-! ### Well-formedness: each check refuses an ill-formed input -/

theorem test_wf_commands (i : Instr) : i.wf = true := by cases i <;> rfl
theorem test_wf_refuses_byte_write : (Input.write 0x04 .byte 1).wf = false := by decide
theorem test_wf_refuses_half_read : (Input.read 0x08 .half).wf = false := by decide
theorem test_wf_refuses_misaligned_write : (Input.write 0x06 .word 1).wf = false := by decide
theorem test_wf_refuses_misaligned_read : (Input.read 0x09 .word).wf = false := by decide
theorem test_wf_refuses_misaligned_poll : (Input.poll 0x0A 1 0).wf = false := by decide
theorem test_wf_accepts_word_access : (Input.read 0xFC .word).wf = true ∧ (Input.write 0x00 .word 7).wf = true := by decide

/-! ### Decoding: R48's words, written out from the format: 28 zero bits, M, F -/

theorem test_decode_keyload : decode 0b0000_0000_0000_0000_0000_0000_0000_0001 = .ok .keyload := by decide
theorem test_decode_encrypt : decode 0b0000_0000_0000_0000_0000_0000_0000_0010 = .ok .encrypt := by decide
theorem test_decode_decrypt : decode 0b0000_0000_0000_0000_0000_0000_0000_0011 = .ok .decrypt := by decide
theorem test_decode_clear : decode 0b0000_0000_0000_0000_0000_0000_0000_0100 = .ok .clear := by decide
theorem test_decode_v1Keyload : decode 0b0000_0000_0000_0000_0000_0000_0000_1001 = .ok .v1Keyload := by decide
theorem test_decode_v1Encrypt : decode 0b0000_0000_0000_0000_0000_0000_0000_1010 = .ok .v1Encrypt := by decide
theorem test_decode_v1Decrypt : decode 0b0000_0000_0000_0000_0000_0000_0000_1011 = .ok .v1Decrypt := by decide
theorem test_decode_v1Clear : decode 0b0000_0000_0000_0000_0000_0000_0000_1100 = .ok .v1Clear := by decide

/-- R49: words next to the commands, and a command with one high bit set, are illegal. -/
theorem test_decode_illegal :
    [0x0, 0x5, 0x8, 0xD, 0xF, 0x10, 0x12, 0x80000001, 0xFFFFFFFF].all (fun v => decode v == .error .illegal) = true := by
  decide

/-- R56: an encoding of each command, and the table word of each. -/
theorem test_table_word (i : Instr) : decodeTableWord 32 (encode i).toNat = some i := by cases i <;> decide

/-! ### The round function, the resolver and the schedules -/

/-- V-ROT. -/
theorem test_rotations :
    rotr 16 0x0080 7 = 0x0001 ∧ rotl 16 0xC000 2 = 0x0003 ∧ rotl 16 0x1234 16 = 0x1234 ∧ rotr 24 0x0000FF 8 = 0xFF0000 ∧
    rotl 48 0xE00000000000 3 = 7 ∧ rotr 1 1 5 = 1 := by decide

/-- V-RF: rows 7, 9 and 10 of width 16. -/
theorem test_fwd :
    fwd 16 7 2 0xFFFF 0x0001 0x0000 = (0x0000, 0x0004) ∧ fwd 16 7 2 0x1234 0xABCD 0x0F0F = (0x1CFE, 0xB3C8) ∧
    fwd 16 7 2 0x6574 0x694C 0x0100 = (0x5316, 0xF627) := by decide

/-- V-RF: the Inv column of rows 8, 9 and 10, and the first row of width 24. -/
theorem test_inv :
    inv 16 7 2 0x0000 0x0004 0x0000 = (0xFFFF, 0x0001) ∧ inv 16 7 2 0x1234 0xABCD 0x0F0F = (0x5ED7, 0x6E7E) ∧
    inv 16 7 2 0x6574 0x694C 0x0100 = (0xB330, 0x030E) ∧ inv 24 8 3 0xFFFFFF 0xFFFFFF 0 = (0xFFFFFF, 0) := by decide

/-- R60's worked example. -/
theorem test_resolve : resolve 64 128 = .ok ⟨64, 128, 32, 27, 8, 3⟩ := by rfl

/-- R60's worked example: wordMask and m. -/
theorem test_resolve_derived : (configOf ⟨64, 128, 27⟩).wordMask = 0xFFFFFFFF ∧ (configOf ⟨64, 128, 27⟩).m = 4 := by decide

/-- V-CFG, R114: the errors, the block size first. -/
theorem test_resolve_errors :
    resolve 1 1 = .error .invalidBlockSize ∧ resolve 33 64 = .error .invalidBlockSize ∧
    resolve 48 144 = .error .invalidKeySize ∧ resolve 128 96 = .error .invalidKeySize := ⟨rfl, rfl, rfl, rfl⟩

/-- R67's key words of Speck32/64. -/
theorem test_keyWords : keyWords 16 64 0xDEAD1918111009080100 = [0x0100, 0x0908, 0x1110, 0x1918] := by decide

/-- R96's worked example. -/
theorem test_v1Schedule : v1Schedule 8 1 5 9 1 (v1KeyWords 8 1 0xAB) = [0xAB, 0x80, 0xC1, 0xA3, 0x77] := by decide

/-! ### Accept: the STATUS a CMD write leaves -/

/-- R69: CONFIG = 0x0080_0001. -/
theorem test_keyload_invalid_block_size :
    readAfter (exec .keyload { State.reset with config := ⟨1, 128⟩ }) .status = some 0x104 := by decide

/-- E4: CONFIG = 0x0001_0080. -/
theorem test_keyload_invalid_key_size :
    readAfter (exec .keyload { State.reset with config := ⟨128, 1⟩ }) .status = some 0x204 := by decide

/-- R87 and P3: NOT_KEYED. -/
theorem test_encrypt_not_keyed : readAfter (exec .encrypt State.reset) .status = some 0x404 := by decide
theorem test_decrypt_not_keyed : readAfter (exec .decrypt State.reset) .status = some 0x404 := by decide

/-- R94: V1_INVALID_PARAM after reset. -/
theorem test_v1Keyload_invalid_param : readAfter (exec .v1Keyload State.reset) .status = some 0x504 := by decide

/-- R103: V1_NOT_KEYED after reset. -/
theorem test_v1Encrypt_not_keyed : readAfter (exec .v1Encrypt State.reset) .status = some 0x604 := by decide
theorem test_v1Decrypt_not_keyed : readAfter (exec .v1Decrypt State.reset) .status = some 0x604 := by decide

/-- P6: the words 5 and 0x12 are ILLEGAL_COMMAND. -/
theorem test_illegal_command :
    readAfter (memWrite 0x04 .word 0x5 State.reset) .status = some 0x304 ∧
    readAfter (memWrite 0x04 .word 0x12 State.reset) .status = some 0x304 := by decide

/-- R47: an accepted command clears DONE and ERR, keeps OVR, and BUSY reads 1. -/
theorem test_accept_status :
    readAfter (exec .clear { State.reset with done := true, err := true, errcode := some .notKeyed, ovr := true }) .status
      = some 0x9 := by decide

/-! ### Completion: the worked example of each command -/

/-- R70: ACFG0 and ACFG1 after the KEYLOAD of E1. -/
theorem test_keyload_acfg :
    readAfter (exec .keyload { staged with pending := some .keyload }) .acfg0 = some 0x00401620 ∧
    readAfter (exec .keyload { staged with pending := some .keyload }) .acfg1 = some 0x00020710 := by decide

set_option maxRecDepth 20000 in
/-- R70, R68: rk[0], rk[1], rk[21] and rk[22] of E1. -/
theorem test_keyload_round_keys :
    [0, 1, 21, 22].map (entry keyed32.rk) = [0x0100, 0x1512, 0xED64, 0] := by decide

set_option maxRecDepth 20000 in
/-- R85: DOUT0 and DOUT1. -/
theorem test_encrypt :
    let s := { keyed32 with din := 0x6574694C, pending := some .encrypt }
    readAfter (exec .encrypt s) (.dout 0) = some 0xA86842F2 ∧ readAfter (exec .encrypt s) (.dout 1) = some 0 := by decide

set_option maxRecDepth 20000 in
/-- R86, with bits of DIN above the block that R82 ignores. -/
theorem test_decrypt :
    readAfter (exec .decrypt { keyed32 with din := 0xFFFFFFFF0000000000000000A86842F2, pending := some .decrypt }) (.dout 0)
      = some 0x6574694C := by decide

/-- R105: STATUS, ACFG0 and DIN after CLEAR. -/
theorem test_clear :
    let s := { keyed32 with din := 5, dout := 6, pending := some .clear }
    readAfter (exec .clear s) .status = some 0x2 ∧ readAfter (exec .clear s) .acfg0 = some 0 ∧
    readAfter (exec .clear s) (.din 0) = some 0 := by decide

/-- R97: V1_ACFG0, V1_ACFG1 and STATUS. -/
theorem test_v1Keyload :
    let o := exec .v1Keyload { v1Staged with pending := some .v1Keyload }
    readAfter o .v1Acfg0 = some 0x00050108 ∧ readAfter o .v1Acfg1 = some 0x00000109 ∧ readAfter o .status = some 0x22 := by
  decide

set_option maxRecDepth 20000 in
/-- R101. -/
theorem test_v1Encrypt :
    readAfter (exec .v1Encrypt { v1Keyed8 with din := 0x1234, pending := some .v1Encrypt }) (.dout 0) = some 0x0BB1 := by
  decide

set_option maxRecDepth 20000 in
/-- R102. -/
theorem test_v1Decrypt :
    readAfter (exec .v1Decrypt { v1Keyed8 with din := 0x0BB1, pending := some .v1Decrypt }) (.dout 0) = some 0x1234 := by
  decide

/-- R106. -/
theorem test_v1Clear :
    let s := { v1Keyed8 with pending := some .v1Clear }
    readAfter (exec .v1Clear s) .status = some 0x2 ∧ readAfter (exec .v1Clear s) .v1Acfg0 = some 0 := by decide

/-! ### The register window -/

/-- R34, R20, R24: constants and the reset value of CONFIG. -/
theorem test_constants :
    memRead 0x00 .word State.reset = .ok 0x53504B01 ∧ memRead 0x70 .word State.reset = .ok 10 ∧
    memRead 0x80 .word State.reset = .ok 0x00401620 ∧ memRead 0xA4 .word State.reset = .ok 0x01002280 ∧
    memRead 0x10 .word State.reset = .ok 0x00800080 := by decide

/-- V-CFG: reserved bits of CONFIG are discarded. -/
theorem test_config_write : readAfter (memWrite 0x10 .word 0xFE00FF80 State.reset) .config = some 0x00000080 := by decide

/-- R45: DIN1 is bits 63:32 of `din`, and KEY1 bits 63:32 of `key` (E1). -/
theorem test_wide_words :
    memRead 0x44 .word { State.reset with din := 0x3B7265747475432D } = .ok 0x3B726574 ∧
    memRead 0x24 .word staged = .ok 0 ∧ getWord staged.key 1 = 0x19181110 ∧
    setWord (n := 256) 0x09080100 1 0x19181110 = 0x1918111009080100 := by decide

/-- R43: a DIN write while busy is dropped and sets OVR; a STATUS write of 8 while busy clears it again (R22). -/
theorem test_busy_writes :
    readAfter (memWrite 0x40 .word 0x6574694C (inFlight .keyload)) (.din 0) = some 0 ∧
    readAfter (memWrite 0x40 .word 0x6574694C (inFlight .keyload)) .status = some 0x9 ∧
    readAfter (memWrite 0x08 .word 0x8 { inFlight .keyload with ovr := true }) .status = some 0x1 := by decide

/-- R22: writing 1 to ERR clears ERR and ERRCODE and leaves DONE and OVR. -/
theorem test_status_w1c :
    readAfter (memWrite 0x08 .word 0x4
      { State.reset with done := true, err := true, ovr := true, errcode := some .notKeyed }) .status = some 0xA := by decide

/-- R117, P6: ERR with ERR_IE raises `irq`; DONE without DONE_IE does not. -/
theorem test_irq :
    irq { State.reset with err := true, irqEn := irqEnOf 0x2 } = true ∧
    irq { State.reset with done := true, irqEn := irqEnOf 0x2 } = false := by decide

/-- R42: a narrow and a misaligned access are refused, a reserved offset is not (R41). -/
theorem test_refused_accesses :
    memRead 0x08 .byte State.reset = .error .narrowAccess ∧ memRead 0x0A .word State.reset = .error .misalignedAccess ∧
    memRead 0xFC .word State.reset = .ok 0 := by decide

/-- R127: a reset while KEYLOAD is in flight leaves no instance and no command. -/
theorem test_reset_in_flight :
    let s := { inFlight .keyload with inputs := [.rst], latencyLeft := 1 }
    readAfter (step s) .status = some 0 := by decide

/-- R36, R55: the read of a `poll` is observed, whether it ends the poll (STATUS 0x2, a completed CLEAR) or not (STATUS 0x1). -/
theorem test_poll_is_observed :
    let l : List Input := [.poll 0x08 0x1 0x0]
    step { State.reset with done := true, inputs := l } = .next { State.reset with done := true, seen := [0x2] } ∧
    step { inFlight .clear with inputs := l, latencyLeft := 1 } = .next { inFlight .clear with inputs := l, seen := [0x1] } :=
  ⟨rfl, rfl⟩

/-- R56: the expansions of `speck.clear` and of `v1.new` begin with the words P3 and P4 write. -/
theorem test_pseudo_instructions :
    HostProgram.speckClear = [.write 0x04 .word 0x4, .poll 0x08 0x1 0x0] ∧
    (HostProgram.v1New 0 16 4 22 7 2).take 2 = [.write 0x14 .word 0x00160410, .write 0x18 .word 0x00000207] ∧
    (HostProgram.speckNew 0x1918111009080100 64 32).take 3 =
      [.write 0x10 .word 0x00400020, .write 0x20 .word 0x09080100, .write 0x24 .word 0x19181110] := by decide

/-! ### Witnesses: for each statement with hypotheses, states and operands that meet them together -/

/-- A state with the primary instance of E1, a command in flight, and the host's inputs, is coherent. -/
theorem coherent_keyed32 (c : Instr) (l : List Input) (n : Nat) (x : Block) (hc : c ∈ primaryCommands) :
    Coherent { keyed32 with pending := some c, inputs := l, latencyLeft := n, din := x } where
  status := rfl
  sequencer := by
    rintro d ⟨⟩
    refine ⟨rfl, rfl, ?_⟩
    simp only [primaryCommands, List.mem_cons, List.not_mem_nil, or_false] at hc
    rcases hc with rfl | rfl | rfl | rfl <;> rfl
  primary := ⟨by simp [keyed32], fun _ => ⟨row32, by decide, 0x1918111009080100, rfl, rfl⟩⟩
  v1 := ⟨fun _ => ⟨rfl, rfl⟩, by simp [keyed32, staged, State.reset]⟩

/-- A state with the V1 instance of R97, and a command in flight. -/
theorem coherent_v1Keyed8 (c : Instr) (x : Block) (hc : c ∈ v1Commands) :
    Coherent { v1Keyed8 with pending := some c, din := x } where
  status := rfl
  sequencer := by
    rintro d ⟨⟩
    refine ⟨rfl, rfl, ?_⟩
    simp only [v1Commands, List.mem_cons, List.not_mem_nil, or_false] at hc
    rcases hc with rfl | rfl | rfl | rfl <;> rfl
  primary := ⟨fun _ => ⟨rfl, rfl⟩, by simp [v1Keyed8, v1Staged, State.reset]⟩
  v1 := ⟨by simp [v1Keyed8], fun _ => ⟨show v1AcfgLegal v1Keyed8.v1Acfg = true by decide, 0xAB, rfl⟩⟩

theorem witness_DecodeAcceptsExactlyTheCommandWords :
    [(0 : BusWord), 5, 8, 13, 16, 0x80000001].all (fun v => v.toNat ∉ [1, 2, 3, 4, 9, 10, 11, 12]) = true ∧
    State.reset.pending = none := by decide

theorem witness_StepRunsTheDecodedCommand :
    let s := { State.reset with inputs := [.write 0x04 .word 0x4, .read 0x08 .word] }
    s.pending = none ∧ s.inputs = .write 0x04 .word 0x4 :: [.read 0x08 .word] ∧ decode 0x4 = .ok .clear := by decide

/-- Both clauses: due at once, due for want of inputs, and not due. -/
theorem witness_StepPlacesTheCompletion :
    (inFlight .clear).pending = some .clear ∧ completionDue (inFlight .clear) = true ∧
    completionDue { inFlight .clear with latencyLeft := 7 } = true ∧
    completionDue { inFlight .clear with latencyLeft := 1, inputs := [.rst] } = false := by decide

theorem witness_FetchedWordIsRunByTheNextStep :
    [(1, Instr.keyload), (2, .encrypt), (3, .decrypt), (4, .clear), (9, .v1Keyload), (10, .v1Encrypt), (11, .v1Decrypt),
      (12, .v1Clear)].all (fun p => decodeTableWord 32 p.1 == some p.2) = true := by decide

theorem witness_EndedRunStays : Ended State.reset := ⟨rfl, rfl⟩

/-- Each command passes its check somewhere. -/
theorem witness_AcceptFollowsTheChecks_pass :
    Pseudocode.acceptCheck .keyload State.reset = 0 ∧ Pseudocode.acceptCheck .encrypt { State.reset with keyed := true } = 0 ∧
    Pseudocode.acceptCheck .decrypt { State.reset with keyed := true } = 0 ∧ Pseudocode.acceptCheck .clear State.reset = 0 ∧
    Pseudocode.acceptCheck .v1Keyload { State.reset with v1cfg0 := ⟨1, 1, 1⟩ } = 0 ∧
    Pseudocode.acceptCheck .v1Keyload { State.reset with v1cfg0 := ⟨64, 4, 64⟩ } = 0 ∧
    Pseudocode.acceptCheck .v1Encrypt { State.reset with v1Keyed := true } = 0 ∧
    Pseudocode.acceptCheck .v1Decrypt { State.reset with v1Keyed := true } = 0 ∧
    Pseudocode.acceptCheck .v1Clear State.reset = 0 ∧ State.reset.pending = none := by decide

/-- Each check fails somewhere, on each side of each range. -/
theorem witness_AcceptFollowsTheChecks_fail :
    Pseudocode.acceptCheck .keyload { State.reset with config := ⟨33, 64⟩ } = 1 ∧
    Pseudocode.acceptCheck .keyload { State.reset with config := ⟨48, 144⟩ } = 2 ∧
    Pseudocode.acceptCheck .encrypt State.reset = 4 ∧ Pseudocode.acceptCheck .decrypt State.reset = 4 ∧
    [⟨0, 1, 1⟩, ⟨65, 1, 1⟩, ⟨1, 0, 1⟩, ⟨1, 5, 1⟩, ⟨1, 1, 0⟩, ⟨1, 1, 65⟩].all
      (fun c : V1Cfg0 => Pseudocode.acceptCheck .v1Keyload { State.reset with v1cfg0 := c } == 5) = true ∧
    Pseudocode.acceptCheck .v1Encrypt State.reset = 6 ∧ Pseudocode.acceptCheck .v1Decrypt State.reset = 6 := by decide

theorem witness_AnotherCommandInFlightDropsTheWrite :
    (inFlight .keyload).pending = some .keyload ∧ Instr.keyload ≠ .encrypt := by decide

/-- The completion of each command answers a next state somewhere. -/
theorem witness_CompletionRaisesNoError (c : Instr) :
    ∃ s : State, s.pending = some c ∧ isNext (exec c s) = true := by
  cases c with
  | v1Keyload => exact ⟨{ v1Staged with pending := some .v1Keyload }, rfl, by decide⟩
  | _ => exact ⟨inFlight _, rfl, by decide⟩

/-- A row at each end of the table, block sizes outside it, and a key size of another block size. -/
theorem witness_ResolveIsTheTable :
    (32, 64, 22) ∈ Pseudocode.table ∧ (128, 256, 34) ∈ Pseudocode.table ∧
    [0, 1, 16, 33, 129, 255].all (fun bs => bs ∉ [32, 48, 64, 96, 128]) = true ∧
    48 ∈ [32, 48, 64, 96, 128] ∧ Pseudocode.table.all (fun r => (r.1, r.2.1) ≠ (48, 144)) = true := by decide

theorem witness_EveryConfigurationFits :
    resolve 32 64 = .ok (configOf row32) ∧ resolve 128 256 = .ok (configOf ⟨128, 256, 34⟩) := ⟨rfl, rfl⟩

/-- The smallest width and one of the primary engine's, for every statement about all widths: rotations, rounds and V1 counts. -/
theorem witness_RotationsFollowTheRule : (1 ≤ 1 ∧ 1 ≤ 24) ∧ 16 % 8 = 0 := by decide
theorem witness_ForwardRoundFollowsThePseudocode :
    ((fwd 16 7 2 0x1234 0xABCD 0x0F0F).1.toNat, (fwd 16 7 2 0x1234 0xABCD 0x0F0F).2.toNat) = (0x1CFE, 0xB3C8) ∧
    Pseudocode.fwd 16 7 2 0x1234 0xABCD 0x0F0F = (0x1CFE, 0xB3C8) := by decide
theorem witness_InverseRoundFollowsThePseudocode :
    Pseudocode.inv 16 7 2 0x6574 0x694C 0x0100 = (0xB330, 0x030E) ∧ Pseudocode.inv 1 5 3 1 0 1 = (1, 1) := by decide
theorem witness_RoundsUndoEachOther :
    inv 1 5 3 (fwd 1 5 3 1 0 1).1 (fwd 1 5 3 1 0 1).2 1 = (1, 0) ∧ (1 ≤ 1) := by decide

theorem witness_V1RotationCountsActModuloTheWidth :
    let s := { v1Staged with pending := some .v1Keyload }
    1 ≤ 8 ∧ 16 % 8 = 0 ∧ 0 % 1 = 0 ∧ s.pending = some .v1Keyload ∧ isNext (exec .v1Keyload s) = true ∧
    v1Staged.pending = none ∧ Pseudocode.acceptCheck .v1Keyload v1Staged = 0 := by decide

/-- The configuration and an index at each end of the schedule. -/
theorem witness_KeyScheduleFollowsThePseudocode :
    resolve 32 64 = .ok (configOf row32) ∧ 0 < (configOf row32).rounds ∧ 21 < (configOf row32).rounds :=
  ⟨rfl, by decide, by decide⟩

theorem witness_V1ScheduleFollowsThePseudocode :
    (1 ≤ 1 ∧ 1 ≤ 64 ∧ 1 ≤ 1 ∧ 1 ≤ 4 ∧ 0 < 1) ∧ (1 ≤ 64 ∧ 64 ≤ 64 ∧ 1 ≤ 4 ∧ 4 ≤ 4 ∧ 63 < 64) := by decide

/-- The two keys of V-KS-4, which agree in their low 64 bits. -/
theorem witness_KeyloadReadsOnlyConfigAndTheTruncatedKey :
    let s := { staged with pending := some .keyload }
    let s' := { s with key := 0xDEAD1918111009080100 }
    s.pending = some .keyload ∧ s'.pending = some .keyload ∧ s.config = s'.config ∧ s.key ≠ s'.key ∧
    s.key.toNat % 2 ^ s.config.keySize.toNat = s'.key.toNat % 2 ^ s.config.keySize.toNat ∧
    isNext (exec .keyload s) = true ∧ isNext (exec .keyload s') = true := by decide

theorem witness_KeyloadCompletes :
    let s := { staged with pending := some .keyload }
    s.pending = some .keyload ∧ (32, 64, 22) ∈ Pseudocode.table ∧ s.config.blockSize.toNat = 32 ∧
    s.config.keySize.toNat = 64 := by decide

theorem witness_EncryptCompletes :
    Coherent { keyed32 with pending := some .encrypt, din := 0x6574694C } :=
  coherent_keyed32 .encrypt [] 0 _ (by decide)

theorem witness_DecryptCompletes :
    Coherent { keyed32 with pending := some .decrypt, din := 0xA86842F2 } :=
  coherent_keyed32 .decrypt [] 0 _ (by decide)

theorem witness_ClearCompletes : (inFlight .clear).pending = some .clear := rfl

/-- The staged V1 parameters, and the largest legal ones. -/
theorem witness_V1KeyloadCompletes :
    let s := { v1Staged with pending := some .v1Keyload }
    s.pending = some .v1Keyload ∧ Pseudocode.acceptCheck .v1Keyload s = 0 ∧
    Pseudocode.acceptCheck .v1Keyload { s with v1cfg0 := ⟨64, 4, 64⟩ } = 0 := by decide

theorem witness_V1EncryptCompletes : Coherent { v1Keyed8 with pending := some .v1Encrypt, din := 0x1234 } :=
  coherent_v1Keyed8 .v1Encrypt _ (by decide)

theorem witness_V1DecryptCompletes : Coherent { v1Keyed8 with pending := some .v1Decrypt, din := 0x0BB1 } :=
  coherent_v1Keyed8 .v1Decrypt _ (by decide)

theorem witness_V1ClearCompletes : (inFlight .v1Clear).pending = some .v1Clear := rfl

/-- The narrowest and the widest word, each with the largest block of its width. -/
theorem witness_SplitAndJoinFollowTheRule :
    (1 ≤ 1 ∧ 1 ≤ 64 ∧ (3 : Block).toNat < 2 ^ (2 * 1)) ∧ (1 ≤ 64 ∧ 64 ≤ 64 ∧ (BitVec.allOnes 128).toNat < 2 ^ (2 * 64)) := by
  decide

theorem witness_PrimaryCipherRoundTrips :
    resolve 32 64 = .ok (configOf row32) ∧ (0xFFFFFFFF : Block).toNat < 2 ^ 32 := ⟨rfl, by decide⟩

theorem witness_V1CipherRoundTrips :
    (1 ≤ 8 ∧ 8 ≤ 64 ∧ 1 ≤ 1 ∧ 1 ≤ 4 ∧ 1 ≤ 5 ∧ 5 ≤ 64 ∧ 9 ≤ 63 ∧ 1 ≤ 63) ∧ (0x1234 : Block).toNat < 2 ^ (2 * 8) := by decide

theorem witness_MachineRoundTrip : Coherent { keyed32 with pending := some .encrypt, din := 0xFFFFFFFF00000000000000006574694C } :=
  coherent_keyed32 .encrypt [] 0 _ (by decide)

/-- Two states that agree on the instance and the low bits of DIN, and differ in the high bits and in CONFIG. -/
theorem witness_DataCommandsReadOnlyTheInstance :
    let s := { keyed32 with pending := some .encrypt, din := 0x6574694C }
    let s' := { s with din := 0xFFFFFFFF00000000000000006574694C, config := ⟨1, 1⟩ }
    s.pending = some .encrypt ∧ s'.pending = some .encrypt ∧ s.acfg = s'.acfg ∧
    s.din.toNat % 2 ^ s.acfg.bs.toNat = s'.din.toNat % 2 ^ s.acfg.bs.toNat := by decide

theorem witness_DataCommandsReadOnlyTheInstance_keys :
    ({ keyed32 with pending := some .encrypt, din := 0x6574694C } : State).rk =
    ({ keyed32 with pending := some .encrypt, config := ⟨1, 1⟩ } : State).rk := rfl

/-- Both clauses: a primary and a V1 completion, from a coherent state. -/
theorem witness_DoutAboveTheBlockIsZero :
    Coherent { keyed32 with pending := some .encrypt, inputs := [], latencyLeft := 0, din := 5 } ∧
    Coherent { v1Keyed8 with pending := some .v1Encrypt, din := 5 } ∧
    isNext (exec .encrypt { keyed32 with pending := some .encrypt }) = true ∧
    isNext (exec .v1Encrypt { v1Keyed8 with pending := some .v1Encrypt }) = true :=
  ⟨coherent_keyed32 .encrypt [] 0 5 (by decide), coherent_v1Keyed8 .v1Encrypt 5 (by decide), rfl, rfl⟩

/-- The first and last aligned offsets, and the ends of the ranges between. -/
theorem witness_MemReadFollowsTheRegisterMap :
    [(0x00 : Offset), 0x1C, 0x20, 0x3C, 0x40, 0x4C, 0x50, 0x5C, 0x80, 0xA4, 0xA8, 0xFC].all (fun a => a.toNat % 4 = 0) = true := by
  decide

/-- The offsets of each clause at the ends of its ranges. -/
theorem witness_MemWriteFollowsTheRegisterMap :
    (inFlight .clear).pending ≠ none ∧ State.reset.pending = none ∧ 7 < 8 ∧ 3 < 4 ∧
    [(0x04 : Offset), 0x10, 0x18, 0x20, 0x3C, 0x40, 0x4C].all (fun a =>
      decide (a.toNat % 4 = 0) && (decide (a.toNat ∈ [0x04, 0x10, 0x14, 0x18]) || decide (0x20 ≤ a.toNat ∧ a.toNat ≤ 0x3C)
        || decide (0x40 ≤ a.toNat ∧ a.toNat ≤ 0x4C))) = true ∧
    [(0x00 : Offset), 0x1C, 0x50, 0x5C, 0x60, 0xA4, 0xA8, 0xFC].all (fun a =>
      decide (a.toNat % 4 = 0) && decide (a.toNat ∉ [0x04, 0x08, 0x0C, 0x10, 0x14, 0x18]) &&
        !decide (0x20 ≤ a.toNat ∧ a.toNat ≤ 0x3C) && !decide (0x40 ≤ a.toNat ∧ a.toNat ≤ 0x4C)) = true := by decide

theorem witness_ReservedOffsetsReadZeroAndIgnoreWrites :
    [(0x1C : Offset), 0x74, 0x78, 0x7C, 0xA8, 0xFC].all (fun a =>
      decide (a.toNat % 4 = 0) && (decide (a.toNat = 0x1C ∨ a.toNat = 0x74 ∨ a.toNat = 0x78 ∨ a.toNat = 0x7C)
        || decide (0xA8 ≤ a.toNat))) = true := by decide

theorem witness_OnlyAlignedWordAccessesHaveAMeaning :
    AccessSize.byte ≠ .word ∧ AccessSize.half ≠ .word ∧ (0x09 : Offset).toNat % 4 ≠ 0 ∧ (0xFC : Offset).toNat % 4 = 0 := by decide

theorem witness_BusyWritesAreDropped :
    let s := { inFlight .keyload with inputs := [.write 0x40 .word 0x6574694C], latencyLeft := 1 }
    s.pending ≠ none ∧ completionDue s = false ∧ isArgument (.din 0) = true ∧
    s.inputs = .write (regOffset (.din 0)) .word 0x6574694C :: [] := by decide

/-- A read while idle, and a read while a command is in flight. -/
theorem witness_ReadsHaveNoSideEffects :
    (0x08 : Offset).toNat % 4 = 0 ∧ HostTurnNow { State.reset with inputs := [.read 0x08 .word] } (.read 0x08 .word) [] ∧
    HostTurnNow { inFlight .clear with inputs := [.read 0x08 .word], latencyLeft := 1 } (.read 0x08 .word) [] :=
  ⟨by decide, ⟨rfl, .inl rfl⟩, ⟨rfl, .inr rfl⟩⟩

/-- A `poll` that is over at once, and one that is not. -/
theorem witness_PollRepeatsUntilTheValue :
    HostTurnNow { State.reset with inputs := [.poll 0x08 1 0] } (.poll 0x08 1 0) [] ∧
    Pseudocode.memRead State.reset 0x08 &&& 1 = 0 ∧
    HostTurnNow { inFlight .clear with inputs := [.poll 0x08 1 0], latencyLeft := 1 } (.poll 0x08 1 0) [] ∧
    Pseudocode.memRead (inFlight .clear) 0x08 &&& 1 = 1 :=
  ⟨⟨rfl, .inl rfl⟩, by decide, ⟨rfl, .inr rfl⟩, by decide⟩

theorem witness_ResetAbandonsTheCommand :
    HostTurnNow { State.reset with inputs := [.rst] } .rst [] ∧
    HostTurnNow { inFlight .keyload with inputs := [.rst], latencyLeft := 3 } .rst [] := ⟨⟨rfl, .inl rfl⟩, ⟨rfl, .inr rfl⟩⟩

theorem witness_IrqFollowsTheStatusBits :
    let s := { State.reset with done := true, ovr := true, irqEn := ⟨true, true, true⟩ }
    s.pending = none ∧ Pseudocode.acceptCheck .clear s = 0 ∧ isNext (exec .clear s) = true := by decide

/-- A coherent state whose step is the completion of ENCRYPT, one whose step is a host access, and one that idles. -/
theorem witness_StepKeepsCoherent :
    (Coherent { keyed32 with pending := some .encrypt, inputs := [], latencyLeft := 0, din := 5 } ∧
      isNext (step { keyed32 with pending := some .encrypt, inputs := [], latencyLeft := 0, din := 5 }) = true) ∧
    (Coherent { keyed32 with pending := some .clear, inputs := [.write 0x08 .word 0xE], latencyLeft := 1, din := 5 } ∧
      isNext (step { keyed32 with pending := some .clear, inputs := [.write 0x08 .word 0xE], latencyLeft := 1, din := 5 })
        = true) ∧
    isNext (step State.reset) = true :=
  ⟨⟨coherent_keyed32 .encrypt [] 0 5 (by decide), rfl⟩, ⟨coherent_keyed32 .clear _ 1 5 (by decide), rfl⟩, rfl⟩

theorem witness_CoherentStatesNeverStop :
    Coherent { keyed32 with pending := some .encrypt, inputs := [.read 0x50 .word], latencyLeft := 1, din := 5 } ∧
    HostKeepsDuty { keyed32 with pending := some .encrypt, inputs := [.read 0x50 .word], latencyLeft := 1, din := 5 } :=
  ⟨coherent_keyed32 .encrypt _ 1 5 (by decide), by simp [HostKeepsDuty, Input.wf, Offset.aligned]⟩

/-- A keyed and an unkeyed coherent state, with an index on each side of `rounds` and at the ends of the file. -/
theorem witness_RoundKeyFileHoldsWords :
    Coherent { keyed32 with pending := some .encrypt, inputs := [], latencyLeft := 0, din := 5 } ∧ keyed32.keyed = true ∧
    21 < keyed32.acfg.rounds.toNat ∧ keyed32.acfg.rounds.toNat ≤ 22 ∧ 33 < 34 ∧
    Coherent { v1Keyed8 with pending := some .v1Encrypt, din := 5 } ∧ v1Keyed8.keyed = false :=
  ⟨coherent_keyed32 .encrypt [] 0 5 (by decide), rfl, by decide, by decide, by decide, coherent_v1Keyed8 .v1Encrypt 5 (by decide), rfl⟩

/-- The pending command of the state a step answers. -/
def pendingAfter (o : Host.Outcome State Fault Refusal) : Option (Option Instr) :=
  match o with
  | .next t => some t.pending
  | .fault _ => none
  | .refused _ => none

/-- The sequencer moves by an accept, by a completion and by a reset. -/
theorem witness_OnlyAcceptCompletionAndResetMoveTheSequencer :
    pendingAfter (step { State.reset with inputs := [.write 0x04 .word 0x4] }) = some (some .clear) ∧
    pendingAfter (step (inFlight .clear)) = some none ∧
    pendingAfter (step { inFlight .clear with inputs := [.rst], latencyLeft := 1 }) = some none := by decide

/-- DOUT changes by a clear, and by a reset (by a data command: `test_encrypt`). -/
theorem witness_OnlyDataCommandsClearsAndResetChangeDout :
    readAfter (step { inFlight .v1Clear with dout := 1 }) (.dout 0) = some 0 ∧
    readAfter (step { State.reset with dout := 1, inputs := [.rst] }) (.dout 0) = some 0 := by decide

/-- ACFG0 changes by a key load, by a clear and by a reset. -/
theorem witness_OnlyKeyloadClearAndResetChangeTheInstance :
    readAfter (step { staged with pending := some .keyload }) .acfg0 = some 0x00401620 ∧
    readAfter (step { keyed32 with pending := some .clear }) .acfg0 = some 0 ∧
    readAfter (step { keyed32 with inputs := [.rst] }) .acfg0 = some 0 ∧ readReg .acfg0 keyed32 = 0x00401620 := by decide

/-- V1_ACFG0 changes by a V1 key load, by a V1 clear and by a reset. -/
theorem witness_OnlyV1KeyloadV1ClearAndResetChangeTheV1Instance :
    readAfter (step { v1Staged with pending := some .v1Keyload }) .v1Acfg0 = some 0x00050108 ∧
    readAfter (step { v1Keyed8 with pending := some .v1Clear }) .v1Acfg0 = some 0 ∧
    readAfter (step { v1Keyed8 with inputs := [.rst] }) .v1Acfg0 = some 0 ∧ readReg .v1Acfg0 v1Keyed8 = 0x00050108 := by decide

/-- OVR rises by a dropped write, and falls by a STATUS write and by a reset. -/
theorem witness_OvrIsSticky :
    readAfter (step { inFlight .clear with inputs := [.write 0x10 .word 1], latencyLeft := 1 }) .status = some 0x9 ∧
    readAfter (step { State.reset with ovr := true, inputs := [.write 0x08 .word 0x8] }) .status = some 0 ∧
    readAfter (step { State.reset with ovr := true, inputs := [.rst] }) .status = some 0 := by decide

/-- DONE rises by a completion, ERR by a refused command, and both fall by a STATUS write, by a CMD write and by a reset. -/
theorem witness_DoneAndErrFollowTheCommands :
    readAfter (step (inFlight .clear)) .status = some 0x2 ∧
    readAfter (step { State.reset with done := true, inputs := [.write 0x04 .word 0x2] }) .status = some 0x404 ∧
    readAfter (step { State.reset with done := true, inputs := [.write 0x08 .word 0x2] }) .status = some 0 ∧
    readAfter (step { State.reset with err := true, errcode := some .notKeyed, inputs := [.write 0x08 .word 0x4] }) .status
      = some 0 ∧
    readAfter (step { State.reset with err := true, errcode := some .notKeyed, inputs := [.write 0x04 .word 0x4] }) .status
      = some 0x1 ∧
    readAfter (step { State.reset with done := true, err := true, errcode := some .notKeyed, inputs := [.rst] }) .status
      = some 0 := by decide

theorem witness_ModulesDoNotDisturbEachOther :
    isNext (exec .keyload (inFlight .keyload)) = true ∧ Instr.keyload ∈ primaryCommands ∧
    isNext (exec .v1Clear (inFlight .v1Clear)) = true ∧ Instr.v1Clear ∈ v1Commands := by decide

/-- Each clause: a command accepted, completed and turned away. -/
theorem witness_CommandsLeaveTheirFrame :
    isNext (exec .clear State.reset) = true ∧ isNext (exec .encrypt (inFlight .encrypt)) = true ∧
    isNext (exec .encrypt (inFlight .clear)) = true ∧ Instr.encrypt ≠ .clear ∧ Instr.encrypt ≠ .v1Clear ∧
    (inFlight .clear).pending ≠ some .encrypt := by decide

theorem witness_AcceptedCommandsComplete :
    Coherent { keyed32 with pending := some .encrypt, inputs := [.poll 0x08 1 0], latencyLeft := 9, din := 5 } ∧
    HostKeepsDuty { keyed32 with pending := some .encrypt, inputs := [.poll 0x08 1 0], latencyLeft := 9, din := 5 } ∧
    .rst ∉ [Input.poll 0x08 1 0] :=
  ⟨coherent_keyed32 .encrypt _ 9 5 (by decide), by simp [HostKeepsDuty, Input.wf, Offset.aligned], by decide⟩

end Sys2Proof.Tests
end

section
/-! The rotations of R13: their values as natural numbers, and the amounts that leave a word as it is. -/

namespace Sys2Proof.Machine

/-- Cutting a natural number to `mask(w)` of R12 is its residue modulo `2^w`. -/
theorem and_mask (n w : Nat) : n &&& Pseudocode.mask w = n % 2 ^ w :=
  Nat.and_two_pow_sub_one_eq_mod n w

/-- A right shift of a `w`-bit word is already within `w` bits, so the cut of R13 does not change it. -/
theorem toNat_shiftRight_mod {w : Nat} (x : BitVec w) (n : Nat) : (x.toNat >>> n) % 2 ^ w = x.toNat >>> n :=
  Nat.mod_eq_of_lt ((Nat.shiftRight_le x.toNat n).trans_lt x.isLt)

/-- The cut of R13 distributes over the OR: it truncates the left shift, as `BitVec` does, and leaves the right shift. -/
@[simp] theorem toNat_rotr (w : Nat) (x : BitVec w) (r : Nat) :
    (rotr w x r).toNat = Pseudocode.rotr w x.toNat r := by
  simp only [rotr, Pseudocode.rotr, and_mask, Nat.or_mod_two_pow, toNat_shiftRight_mod,
    BitVec.toNat_or, BitVec.toNat_ushiftRight, BitVec.toNat_shiftLeft]

@[simp] theorem toNat_rotl (w : Nat) (x : BitVec w) (r : Nat) :
    (rotl w x r).toNat = Pseudocode.rotl w x.toNat r := by
  simp only [rotl, Pseudocode.rotl, and_mask, Nat.or_mod_two_pow, toNat_shiftRight_mod,
    BitVec.toNat_or, BitVec.toNat_ushiftRight, BitVec.toNat_shiftLeft]

/-- At a multiple of the width one shift is by 0 and the other, by `w`, moves every bit out. -/
theorem rotr_of_mod_eq_zero {w r : Nat} (x : BitVec w) (hr : r % w = 0) : rotr w x r = x := by
  have hout : x <<< w = 0#w := BitVec.shiftLeft_eq_zero le_rfl
  simp [rotr, hr, hout]

theorem rotl_of_mod_eq_zero {w r : Nat} (x : BitVec w) (hr : r % w = 0) : rotl w x r = x := by
  have hout : x >>> w = 0#w := BitVec.ushiftRight_eq_zero le_rfl
  simp [rotl, hr, hout]

/-- Settles O12: the values are those of the rule's formulas, and the width is a multiple of itself. -/
theorem rotationsFollowTheRule : Obligations.RotationsFollowTheRule := by
  intro w x r _
  exact ⟨toNat_rotr w x r, toNat_rotl w x r,
    rotr_of_mod_eq_zero x (Nat.mod_self w), rotl_of_mod_eq_zero x (Nat.mod_self w)⟩

end Sys2Proof.Machine
end

section
/-! The answers of the decoder, the resolver and the accept checks, as the spec's tables give them: a word that decodes is
the command's own (R49), a resolved configuration is a row's (R57), and an accept check answers the code of R52. -/

namespace Sys2Proof.Machine

open Sys2Proof.Safety

/-- Every row of the opcode table holds the whole word of its command (R48, R49). -/
theorem opcodeTable_row {r : OpcodeRow} (hr : r ∈ opcodeTable) :
    r.mask = BitVec.allOnes 32 ∧ r.pattern = encode r.instr := by
  revert r; decide

theorem eq_encode_of_decode {v : BusWord} {c : Instr} (h : decode v = .ok c) : v = encode c := by
  simp only [decode] at h
  split at h
  case h_2 => cases h
  case h_1 r hr =>
    cases h
    obtain ⟨hmask, hpattern⟩ := opcodeTable_row (List.mem_of_find?_eq_some hr)
    have hv : v &&& r.mask = r.pattern := by simpa using List.find?_some hr
    rwa [hmask, BitVec.and_allOnes, hpattern] at hv

theorem resolve_ok {bs ks : Nat} {c : CipherConfig} (h : resolve bs ks = .ok c) : ∃ r ∈ configTable, c = configOf r := by
  simp only [resolve] at h
  split at h
  case isFalse => cases h
  case isTrue =>
    split at h
    case h_1 r hr => cases h; exact ⟨r, List.mem_of_find?_eq_some hr, rfl⟩
    case h_2 => cases h

/-- No row is found exactly when the pair is not one of R57's ten. -/
theorem findRow_eq_none {bs ks : Nat} :
    findRow bs ks = none ↔ (bs, ks) ∉ Pseudocode.table.map (fun r => (r.1, r.2.1)) := by
  rw [show Pseudocode.table.map (fun r => (r.1, r.2.1)) = configTable.map (fun r => (r.bs, r.ks)) from rfl]
  simp [findRow, List.find?_eq_none]

theorem v1Legal_iff {bits n rounds : Nat} :
    v1Legal bits n rounds = true ↔ 1 ≤ bits ∧ bits ≤ 64 ∧ 1 ≤ n ∧ n ≤ 4 ∧ 1 ≤ rounds ∧ rounds ≤ 64 :=
  decide_eq_true_iff

/-- The accept checks answer the codes of R52's pseudocode, KEYLOAD's the block size first (R58, R59). -/
theorem codeOf_acceptCheck (c : Instr) (s : State) : Pseudocode.codeOf (acceptCheck c s) = Pseudocode.acceptCheck c s := by
  cases c with
  | keyload =>
    simp only [acceptCheck, checkKeyload, resolveConfig, resolve, blockSizeArg, keySizeArg, Pseudocode.acceptCheck,
      ← findRow_eq_none]
    by_cases hb : s.config.blockSize.toNat ∈ Config.blockSizes
    · cases hr : findRow s.config.blockSize.toNat s.config.keySize.toNat <;>
        simp_all [Config.blockSizes, Pseudocode.codeOf]
    · simp_all [Config.blockSizes, Pseudocode.codeOf]
  | v1Keyload =>
    have hlegal : v1ParamsLegal s = true ↔ ¬(s.v1cfg0.wordBits.toNat < 1 ∨ 64 < s.v1cfg0.wordBits.toNat ∨
        s.v1cfg0.nkeys.toNat < 1 ∨ 4 < s.v1cfg0.nkeys.toNat ∨ s.v1cfg0.rounds.toNat < 1 ∨ 64 < s.v1cfg0.rounds.toNat) := by
      rw [v1ParamsLegal, v1Legal_iff, v1BitsArg, v1KeysArg, v1RoundsArg]
      omega
    simp only [acceptCheck, checkV1Keyload, Pseudocode.acceptCheck, hlegal, ite_not]
    split <;> rfl
  | encrypt | decrypt => cases h : s.keyed <;> simp [acceptCheck, checkKeyed, Pseudocode.acceptCheck, Pseudocode.codeOf, h]
  | v1Encrypt | v1Decrypt =>
    cases h : s.v1Keyed <;> simp [acceptCheck, checkV1Keyed, Pseudocode.acceptCheck, Pseudocode.codeOf, h]
  | clear | v1Clear => rfl

end Sys2Proof.Machine
end

section
/-! What a step does to the commands: the STATUS bits, the sequencer, the result and what the key loads latch. A step is a
completion, a CMD write, a STATUS write or `rst`, or it leaves all of them as they were. -/

namespace Sys2Proof.Machine

open Sys2Proof.Safety Sys2Proof.Terms

/-- What every input keeps but a CMD write in an idle state, a STATUS write and `rst`; with a command in flight also the
operands its accept check reads (R43). -/
structure CommandStateKept (s t : State) : Prop where
  pending : t.pending = s.pending
  done : t.done = s.done
  err : t.err = s.err
  errcode : t.errcode = s.errcode
  dout : t.dout = s.dout
  keyed : t.keyed = s.keyed
  acfg : t.acfg = s.acfg
  rk : t.rk = s.rk
  v1Keyed : t.v1Keyed = s.v1Keyed
  v1Acfg : t.v1Acfg = s.v1Acfg
  v1Rk : t.v1Rk = s.v1Rk
  operands : s.pending ≠ none → t.config = s.config ∧ t.v1cfg0 = s.v1cfg0

/-- All a step can do to the commands; `rest` and `n` are the host's inputs and the count after the one it took. -/
inductive StepEffect (s : State) : State → Prop where
  | completed (c : Instr) (u : State) (hc : CompletesNow s c) (hu : completionEffect c s = .ok u) : StepEffect s (finish u)
  | accepted (c : Instr) (rest : List Input) (n : Nat) (hp : s.pending = none) (hw : WriteNow s 0x04 (encode c)) :
      StepEffect s (accept c (acceptCheck c s) { s with inputs := rest, latencyLeft := n })
  | illegal (v : BusWord) (rest : List Input) (n : Nat) (hp : s.pending = none) (hw : WriteNow s 0x04 v) :
      StepEffect s (raise .illegalCommand (clearResult { s with inputs := rest, latencyLeft := n }))
  | acknowledged (v : BusWord) (rest : List Input) (n : Nat) (hw : WriteNow s 0x08 v) :
      StepEffect s (acknowledge v { s with inputs := rest, latencyLeft := n })
  | reset (rest : List Input) (n : Nat) (hr : RstNow s) :
      StepEffect s (resetCore { s with inputs := rest, latencyLeft := n })
  | kept (t : State) (hk : CommandStateKept s t) : StepEffect s t

/-- Every step that answers a next state has one of the effects of `StepEffect`. -/
theorem step_effect {s t : State} (h : step s = .next t) : StepEffect s t := by
  rcases step_next h with ⟨c, u, hp, hd, hu, rfl⟩ | ⟨-, -, rfl⟩ | ⟨x, rest, n, hi, hturn, hx⟩
  · exact .completed c u ⟨hp, hd⟩ hu
  · exact .kept _ ⟨rfl, rfl, rfl, rfl, rfl, rfl, rfl, rfl, rfl, rfl, rfl, fun _ => ⟨rfl, rfl⟩⟩
  · cases hx
    case accepted c v hd hp =>
      obtain rfl := eq_encode_of_decode hd
      have hcheck : acceptCheck c { s with inputs := rest, latencyLeft := n } = acceptCheck c s :=
        acceptCheck_congr rfl rfl rfl rfl
      rw [hcheck]
      exact .accepted c rest n hp ⟨rest, hi, hturn⟩
    case illegal v _ hp => exact .illegal v rest n hp ⟨rest, hi, hturn⟩
    case acknowledged v => exact .acknowledged v rest n ⟨rest, hi, hturn⟩
    case rst => exact .reset rest n ⟨rest, hi, hturn⟩
    case config hp | v1cfg0 hp =>
      exact .kept _ ⟨rfl, rfl, rfl, rfl, rfl, rfl, rfl, rfl, rfl, rfl, rfl, fun hb => absurd hp hb⟩
    all_goals exact .kept _ ⟨rfl, rfl, rfl, rfl, rfl, rfl, rfl, rfl, rfl, rfl, rfl, fun _ => ⟨rfl, rfl⟩⟩

end Sys2Proof.Machine
end

section
/-! Every step keeps the coherence of a state, one lemma for each part of it that a kind of step moves. -/

namespace Sys2Proof.Safety

open Sys2Proof.Machine Sys2Proof.Terms

/-- A completion leaves what KEYLOAD latched, latches a row of the table, or clears it (R70, R105). -/
theorem completionEffect_keeps_primaryCoherent {c : Instr} {s u : State} (hs : PrimaryCoherent s)
    (hu : completionEffect c s = .ok u) : PrimaryCoherent u := by
  obtain ⟨hkeep, -⟩ := completionEffect_writes hu
  cases c with
  | keyload =>
    simp only [completionEffect, effectKeyload] at hu
    split at hu
    case h_2 => cases hu
    case h_1 cfg hcfg =>
      obtain ⟨r, hr, rfl⟩ := resolve_ok hcfg
      cases hu
      exact ⟨nofun, fun _ => ⟨r, hr, s.key, rfl, rfl⟩⟩
  | clear => cases hu; exact ⟨fun _ => ⟨rfl, rfl⟩, nofun⟩
  | _ =>
    obtain ⟨hkeyed, hacfg, hrk⟩ := hkeep nofun nofun
    exact (primaryCoherent_congr hkeyed hacfg hrk).2 hs

/-- A completion leaves what V1_KEYLOAD latched, latches legal parameters, or clears it (R97, R106). -/
theorem completionEffect_keeps_v1Coherent {c : Instr} {s u : State} (hs : V1Coherent s)
    (hu : completionEffect c s = .ok u) : V1Coherent u := by
  obtain ⟨-, hkeep, -⟩ := completionEffect_writes hu
  cases c with
  | v1Keyload =>
    simp only [completionEffect, effectV1Keyload] at hu
    split at hu
    case isFalse => cases hu
    case isTrue hlegal => cases hu; exact ⟨nofun, fun _ => ⟨hlegal, s.key, rfl⟩⟩
  | v1Clear => cases hu; exact ⟨fun _ => ⟨rfl, rfl⟩, nofun⟩
  | _ =>
    obtain ⟨hkeyed, hacfg, hrk⟩ := hkeep nofun nofun
    exact (v1Coherent_congr hkeyed hacfg hrk).2 hs

theorem finish_coherent {c : Instr} {s u : State} (hs : Coherent s) (hu : completionEffect c s = .ok u) :
    Coherent (finish u) := by
  obtain ⟨-, -, -, -, -, herr, -, herrcode, -⟩ := completionEffect_frame hu
  exact {
    status := (statusCoherent_congr herr herrcode).2 hs.status
    sequencer := sequencerCoherent_idle rfl
    primary := (primaryCoherent_congr (s := u) rfl rfl rfl).2 (completionEffect_keeps_primaryCoherent hs.primary hu)
    v1 := (v1Coherent_congr (s := u) rfl rfl rfl).2 (completionEffect_keeps_v1Coherent hs.v1 hu) }

/-- The command an accept puts in flight has passed its check, and the accept leaves what the check reads. -/
theorem accept_coherent (c : Instr) {s : State} (hs : Coherent s) (hp : s.pending = none) :
    Coherent (accept c (acceptCheck c s) s) where
  status := by simp [StatusCoherent]
  sequencer := by
    cases hv : acceptCheck c s with
    | some e => exact sequencerCoherent_idle (by simp [accept_pending, hp])
    | none =>
      intro d hd
      obtain rfl : c = d := by simpa [accept_pending] using hd
      exact ⟨rfl, rfl, (acceptCheck_congr rfl rfl rfl rfl).trans hv⟩
  primary := (primaryCoherent_congr (by simp) (by simp) (by simp)).2 hs.primary
  v1 := (v1Coherent_congr (by simp) (by simp) (by simp)).2 hs.v1

theorem raise_coherent (e : ErrorCode) {s : State} (hs : Coherent s) (hp : s.pending = none) :
    Coherent (raise e (clearResult s)) where
  status := rfl
  sequencer := sequencerCoherent_idle hp
  primary := (primaryCoherent_congr rfl rfl rfl).2 hs.primary
  v1 := (v1Coherent_congr rfl rfl rfl).2 hs.v1

/-- A STATUS write clears ERR and ERRCODE together (R22). -/
theorem acknowledge_coherent (v : BusWord) {s : State} (hs : Coherent s) : Coherent (acknowledge v s) where
  status := by
    have hstatus : s.err = s.errcode.isSome := hs.status
    cases hv : v[2] <;> simp [StatusCoherent, hv, hstatus]
  sequencer := sequencerCoherent_congr hs.sequencer rfl (by simp +contextual) (by simp +contextual) rfl rfl rfl rfl
  primary := (primaryCoherent_congr rfl rfl rfl).2 hs.primary
  v1 := (v1Coherent_congr rfl rfl rfl).2 hs.v1

theorem resetCore_coherent (s : State) : Coherent (resetCore s) where
  status := rfl
  sequencer := sequencerCoherent_idle rfl
  primary := ⟨fun _ => ⟨rfl, rfl⟩, nofun⟩
  v1 := ⟨fun _ => ⟨rfl, rfl⟩, nofun⟩

theorem coherent_of_kept {s t : State} (hs : Coherent s) (hk : CommandStateKept s t) : Coherent t where
  status := (statusCoherent_congr hk.err hk.errcode).2 hs.status
  sequencer := by
    intro c hc
    have hpending : s.pending = some c := hk.pending ▸ hc
    obtain ⟨hconfig, hv1cfg0⟩ := hk.operands (by simp [hpending])
    obtain ⟨hdone, herr, hcheck⟩ := hs.sequencer c hpending
    exact ⟨hk.done.trans hdone, hk.err.trans herr,
      (acceptCheck_congr hconfig hv1cfg0 hk.keyed hk.v1Keyed).trans hcheck⟩
  primary := (primaryCoherent_congr hk.keyed hk.acfg hk.rk).2 hs.primary
  v1 := (v1Coherent_congr hk.v1Keyed hk.v1Acfg hk.v1Rk).2 hs.v1

/-- Coherence does not read the host's inputs nor the count to the completion. -/
theorem coherent_of_hostFields {s : State} (hs : Coherent s) (rest : List Input) (n : Nat) :
    Coherent { s with inputs := rest, latencyLeft := n } :=
  coherent_of_kept hs ⟨rfl, rfl, rfl, rfl, rfl, rfl, rfl, rfl, rfl, rfl, rfl, fun _ => ⟨rfl, rfl⟩⟩

/-- Settles O46, by cases on what a step can do. -/
theorem stepKeepsCoherent : Obligations.StepKeepsCoherent := by
  intro s t hs h
  cases step_effect h with
  | completed c u _ hu => exact finish_coherent hs hu
  | accepted c rest n hp _ => exact accept_coherent c (coherent_of_hostFields hs rest n) hp
  | illegal _ rest n hp _ => exact raise_coherent _ (coherent_of_hostFields hs rest n) hp
  | acknowledged v rest n _ => exact acknowledge_coherent v (coherent_of_hostFields hs rest n)
  | reset => exact resetCore_coherent _
  | kept _ hk => exact coherent_of_kept hs hk

end Sys2Proof.Safety
end

section
/-! What moves each part of the state: the sequencer, DOUT, what the key loads latch, and the STATUS bits DONE and ERR. -/

namespace Sys2Proof.Machine

open Sys2Proof.Safety Sys2Proof.Terms

/-- BUSY is bit 0 of STATUS (R22). -/
theorem statusWord_busy (s : State) : (statusWord s).getLsbD 0 = busy s := by
  simp only [statusWord]
  rw [BitVec.getLsbD_append]
  simp

/-- Settles O49: an input other than an accepted CMD write and `rst` keeps the sequencer, and an accept moves it only when its
check passes. -/
theorem onlyAcceptCompletionAndResetMoveTheSequencer : Obligations.OnlyAcceptCompletionAndResetMoveTheSequencer := by
  refine ⟨fun s => by rw [statusWord_busy, busy, Option.isSome_iff_ne_none], fun s t h hne => ?_⟩
  cases step_effect h with
  | completed c _ hc _ => exact .inr (.inl ⟨c, hc, rfl⟩)
  | accepted c _ _ hp hw =>
    cases hv : acceptCheck c s with
    | some e => exact absurd (by simp [accept_pending, hv]) hne
    | none => exact .inl ⟨c, hp, rfl, hw, by rw [← codeOf_acceptCheck, hv]; rfl⟩
  | illegal | acknowledged => exact absurd rfl hne
  | reset _ _ hr => exact .inr (.inr ⟨hr, rfl⟩)
  | kept _ hk => exact absurd hk.pending hne

/-- Settles O50: of the completions the key loads keep DOUT, and no input but `rst` moves it. -/
theorem onlyDataCommandsClearsAndResetChangeDout : Obligations.OnlyDataCommandsClearsAndResetChangeDout := by
  intro s t h hne
  cases step_effect h with
  | completed c u hc hu =>
    obtain ⟨-, -, -, hkeyload, hclear, -⟩ := completionEffect_writes hu
    cases c with
    | keyload => exact absurd (hkeyload (.inl rfl)) hne
    | v1Keyload => exact absurd (hkeyload (.inr rfl)) hne
    | clear => exact .inr (.inl ⟨.inl hc, hclear (.inl rfl)⟩)
    | v1Clear => exact .inr (.inl ⟨.inr hc, hclear (.inr rfl)⟩)
    | _ => exact .inl ⟨_, by decide, hc⟩
  | accepted => exact absurd (accept_dout ..) hne
  | illegal | acknowledged => exact absurd rfl hne
  | reset _ _ hr => exact .inr (.inr ⟨hr, rfl⟩)
  | kept _ hk => exact absurd hk.dout hne

/-- Settles O51: of the completions only those of KEYLOAD and CLEAR write `keyed`, `acfg` and `rk`, and no input but
`rst` does. -/
theorem onlyKeyloadClearAndResetChangeTheInstance : Obligations.OnlyKeyloadClearAndResetChangeTheInstance := by
  intro s t h hne
  cases step_effect h with
  | completed c u hc hu =>
    obtain ⟨hkeep, -, -, -, -, hkeyload, hclear, -⟩ := completionEffect_writes hu
    cases c with
    | keyload => exact .inl ⟨hc, hkeyload rfl⟩
    | clear => exact .inr (.inl ⟨hc, hclear rfl⟩)
    | _ => exact absurd (hkeep nofun nofun) hne
  | accepted => exact absurd ⟨accept_keyed .., accept_acfg .., accept_rk ..⟩ hne
  | illegal | acknowledged => exact absurd ⟨rfl, rfl, rfl⟩ hne
  | reset _ _ hr => exact .inr (.inr ⟨hr, rfl⟩)
  | kept _ hk => exact absurd ⟨hk.keyed, hk.acfg, hk.rk⟩ hne

/-- Settles O52: of the completions only those of V1_KEYLOAD and V1_CLEAR write their V1 counterparts, and no input but
`rst` does. -/
theorem onlyV1KeyloadV1ClearAndResetChangeTheV1Instance :
    Obligations.OnlyV1KeyloadV1ClearAndResetChangeTheV1Instance := by
  intro s t h hne
  cases step_effect h with
  | completed c u hc hu =>
    obtain ⟨-, hkeep, -, -, -, -, -, hkeyload, hclear⟩ := completionEffect_writes hu
    cases c with
    | v1Keyload => exact .inl ⟨hc, hkeyload rfl⟩
    | v1Clear => exact .inr (.inl ⟨hc, hclear rfl⟩)
    | _ => exact absurd (hkeep nofun nofun) hne
  | accepted => exact absurd ⟨accept_v1Keyed .., accept_v1Acfg .., accept_v1Rk ..⟩ hne
  | illegal | acknowledged => exact absurd ⟨rfl, rfl, rfl⟩ hne
  | reset _ _ hr => exact .inr (.inr ⟨hr, rfl⟩)
  | kept _ hk => exact absurd ⟨hk.v1Keyed, hk.v1Acfg, hk.v1Rk⟩ hne

/-- Settles O54: a completion sets DONE and keeps ERR, a CMD write in an idle state clears DONE and decides ERR, a STATUS write
clears what its bits name, `rst` clears both, and nothing else moves them. -/
theorem doneAndErrFollowTheCommands : Obligations.DoneAndErrFollowTheCommands := by
  intro s t h
  cases step_effect h with
  | completed c u hc hu =>
    obtain ⟨-, -, -, -, -, herr, -⟩ := completionEffect_frame hu
    exact ⟨fun _ _ => ⟨c, hc⟩, by simp +contextual [herr], nofun, by simp +contextual [herr]⟩
  | accepted c _ _ hp hw =>
    have hcmd : s.pending = none ∧ ∃ v, WriteNow s 0x04 v := ⟨hp, _, hw⟩
    exact ⟨by simp, fun _ _ => hcmd, fun _ _ => .inr (.inl hcmd), fun _ _ => .inr (.inl hcmd)⟩
  | illegal v _ _ hp hw =>
    have hcmd : s.pending = none ∧ ∃ v, WriteNow s 0x04 v := ⟨hp, v, hw⟩
    exact ⟨nofun, fun _ _ => hcmd, fun _ _ => .inr (.inl hcmd), fun _ _ => .inr (.inl hcmd)⟩
  | acknowledged v _ _ hw =>
    exact ⟨by simp +contextual, by simp +contextual, fun hs ht => .inl ⟨v, hw, by simpa [hs] using ht⟩,
      fun hs ht => .inl ⟨v, hw, by simpa [hs] using ht⟩⟩
  | reset _ _ hr => exact ⟨nofun, nofun, fun _ _ => .inr (.inr hr), fun _ _ => .inr (.inr hr)⟩
  | kept _ hk => simp +contextual [hk.done, hk.err]

/-- Settles O55: an accept and a dropped write keep what both modules latched, and a completion writes only its own module's. -/
theorem modulesDoNotDisturbEachOther : Obligations.ModulesDoNotDisturbEachOther := by
  intro c s t h
  rw [exec_eq_runCommand] at h
  rcases runCommand_next h with ⟨-, rfl⟩ | ⟨-, u, hu, rfl⟩ | ⟨p, -, -, rfl⟩
  · simp
  · obtain ⟨hprimary, hv1, -⟩ := completionEffect_writes hu
    exact ⟨fun hc => hv1 (ne_of_mem_of_not_mem hc (by decide)) (ne_of_mem_of_not_mem hc (by decide)),
      fun hc => hprimary (ne_of_mem_of_not_mem hc (by decide)) (ne_of_mem_of_not_mem hc (by decide))⟩
  · simp

end Sys2Proof.Machine
end

section
/-! The block codec as a whole: `Split` and `Join` of R81 undo each other up to the truncation to the block, decryption undoes
encryption under the same round keys, and every result is a block of `2w` bits. -/

namespace Sys2Proof.Machine

/-- Bit by bit: each rotation moves by `r mod w`, one up and the other down. -/
theorem rotl_rotr {w : Nat} (x : BitVec w) (r : Nat) : rotl w (rotr w x r) r = x := by
  change (x.rotateRight r).rotateLeft r = x
  ext i hi
  have hr : r % w < w := Nat.mod_lt r (Nat.zero_lt_of_lt hi)
  grind

theorem rotr_rotl {w : Nat} (x : BitVec w) (r : Nat) : rotr w (rotl w x r) r = x := by
  change (x.rotateLeft r).rotateRight r = x
  ext i hi
  have hr : r % w < w := Nat.mod_lt r (Nat.zero_lt_of_lt hi)
  grind

/-- The inverse round gives back what the forward round took (R77). -/
theorem inv_fwd {w : Nat} (a b : Nat) (u l k : BitVec w) :
    inv w a b (fwd w a b u l k).1 (fwd w a b u l k).2 k = (u, l) := by
  have hlower (u' : BitVec w) : u' ^^^ (rotl w l b ^^^ u') = rotl w l b := by
    rw [BitVec.xor_comm (rotl w l b), ← BitVec.xor_assoc, BitVec.xor_self, BitVec.zero_xor]
  have hupper (x : BitVec w) : x ^^^ k ^^^ k = x := by rw [BitVec.xor_assoc, BitVec.xor_self, BitVec.xor_zero]
  simp only [inv, fwd, hlower, hupper, rotr_rotl, BitVec.add_sub_cancel, rotl_rotr]

/-- The reverse fold undoes the forward fold over the same keys, the last round first (R84, R88). -/
theorem decryptWords_encryptWords {w : Nat} (a b : Nat) (keys : List (BitVec w)) (p : BitVec w × BitVec w) :
    decryptWords w a b keys (encryptWords w a b keys p) = p := by
  induction keys generalizing p with
  | nil => rfl
  | cons k keys ih =>
    have hlast (q : BitVec w × BitVec w) :
        decryptWords w a b (k :: keys) q =
          inv w a b (decryptWords w a b keys q).1 (decryptWords w a b keys q).2 k := by
      simp [decryptWords]
    rw [hlast, show encryptWords w a b (k :: keys) p = encryptWords w a b keys (fwd w a b p.1 p.2 k) from rfl, ih, inv_fwd]

@[simp] theorem toNat_truncBlock (n : Nat) (x : Block) : (truncBlock n x).toNat = x.toNat % 2 ^ n := by
  simp only [truncBlock, BitVec.toNat_setWidth]
  exact Nat.mod_eq_of_lt ((Nat.mod_le ..).trans_lt x.isLt)

theorem truncBlock_of_lt {n : Nat} {x : Block} (hx : x.toNat < 2 ^ n) : truncBlock n x = x :=
  BitVec.eq_of_toNat_eq (by rw [toNat_truncBlock, Nat.mod_eq_of_lt hx])

/-- `Join` is the concatenation of the two words, in a block register (R81). -/
theorem join_eq_append {w : Nat} (p : BitVec w × BitVec w) : join p = (p.1 ++ p.2).setWidth 128 :=
  BitVec.setWidth_append_eq_shiftLeft_setWidth_or.symm

theorem join_lt {w : Nat} (p : BitVec w × BitVec w) : (join p).toNat < 2 ^ (2 * w) := by
  rw [join_eq_append, BitVec.toNat_setWidth, Nat.two_mul]
  exact (Nat.mod_le ..).trans_lt (p.1 ++ p.2).isLt

/-- Joining the words of a split block gives its low `2w` bits. -/
theorem join_split {w : Nat} (hw : w ≤ 64) (x : Block) : join (split w x) = truncBlock (2 * w) x := by
  rw [join_eq_append, truncBlock, Nat.two_mul, split, BitVec.setWidth_eq_extractLsb' (show w ≤ 128 by omega),
    BitVec.setWidth_eq_extractLsb' (show w + w ≤ 128 by omega),
    BitVec.extractLsb'_append_extractLsb'_eq_extractLsb' (Nat.zero_add w).symm]

/-- A block register holds both words of up to 64 bits, so splitting what was joined gives them back. -/
theorem split_join {w : Nat} (hw : w ≤ 64) (p : BitVec w × BitVec w) : split w (join p) = p := by
  rw [join_eq_append, split, BitVec.extractLsb'_setWidth_of_le (by omega), BitVec.extractLsb'_append_eq_left,
    BitVec.setWidth_setWidth_of_le _ (by omega), BitVec.setWidth_append_eq_right]

/-- Decryption undoes encryption under the same round keys, up to the truncation to the block (R82, R88). -/
theorem decryptBlock_encryptBlock {w : Nat} (hw : w ≤ 64) (a b : Nat) (keys : List (BitVec w)) (x : Block) :
    decryptBlock w a b keys (encryptBlock w a b keys x) = truncBlock (2 * w) x := by
  rw [decryptBlock, encryptBlock, split_join hw, decryptWords_encryptWords, join_split hw]

theorem encryptBlock_lt (w a b : Nat) (keys : List (BitVec w)) (x : Block) :
    (encryptBlock w a b keys x).toNat < 2 ^ (2 * w) := join_lt _

theorem decryptBlock_lt (w a b : Nat) (keys : List (BitVec w)) (x : Block) :
    (decryptBlock w a b keys x).toNat < 2 ^ (2 * w) := join_lt _

end Sys2Proof.Machine
end

section
/-! The round-key files: how many words the schedule of a configuration has, and what an entry of a file holds. -/

namespace Sys2Proof.Machine

open Sys2Proof.Terms

/-- Each iteration of the schedule appends one round key (R65). -/
theorem length_keys_foldl_scheduleStep {w : Nat} (a b : Nat) (q : ScheduleSeqs w) (is : List Nat) :
    (is.foldl (scheduleStep w a b) q).keys.length = q.keys.length + is.length := by
  induction is generalizing q with
  | nil => rfl
  | cons i is ih => simp [ih, scheduleStep]; omega

/-- The schedule has one word a round, when there is a key word to seed it (R65). -/
theorem length_keySchedule {c : CipherConfig} (key : KeyReg) (hrounds : 1 ≤ c.rounds) (hm : 1 ≤ c.m) :
    (keySchedule c key).length = c.rounds := by
  have hseed : ((keyWords c.w c.ks key).take 1).length = 1 := by
    rw [List.length_take, keyWords, List.length_map, List.length_range]
    exact Nat.min_eq_left hm
  rw [keySchedule, expandKey, length_keys_foldl_scheduleStep, hseed, List.length_range]
  omega

/-- An entry of a round-key file is the schedule's word, or 0 above the schedule (R32). -/
theorem entry_keyFile {w depth i : Nat} (keys : List (BitVec w)) (hw : w ≤ 64) (hi : i < depth) :
    entry (keyFile depth keys) i = (keys.getD i 0).toNat := by
  have hentry : entry (keyFile depth keys) i = ((keys.getD i 0).setWidth 64).toNat := by
    simp [entry, keyFile, hi]
  rw [hentry, BitVec.toNat_setWidth_of_le hw]

theorem entry_replicate_zero (depth i : Nat) : entry (Vector.replicate depth 0) i = 0 := by
  by_cases hi : i < depth <;> simp [entry, Vector.toList_replicate, hi]

/-- What a row of R57's table gives: its configuration fits the fields of `acfg` and the datapath (R60, R63, R64). -/
theorem configTable_row {r : TableRow} (hr : r ∈ configTable) :
    (latchedConfig (configOf r)).w.toNat = (configOf r).w ∧
    (latchedConfig (configOf r)).rounds.toNat = (configOf r).rounds ∧
    (latchedConfig (configOf r)).bs.toNat = 2 * (configOf r).w ∧
    (configOf r).w ≤ 64 ∧ 1 ≤ (configOf r).rounds ∧ 1 ≤ (configOf r).m := by
  revert r; decide

end Sys2Proof.Machine
end

section
/-! The completions of the data commands, and the round-key file, in coherent states. -/

namespace Sys2Proof.Machine

open Sys2Proof.Safety

variable {c : Instr} {s t : State}

/-- A command in flight that answers a next state has completed with its effect. -/
theorem exec_completed (hp : s.pending = some c) (h : exec c s = .next t) :
    ∃ u, completionEffect c s = .ok u ∧ t = finish u := by
  rw [exec_eq_runCommand] at h
  rcases runCommand_next h with ⟨hidle, -⟩ | ⟨-, hu⟩ | ⟨p, hother, hne, -⟩
  · simp [hp] at hidle
  · exact hu
  · exact absurd (Option.some.inj (hother.symm.trans hp)) hne

theorem exec_encrypt_completes (hp : s.pending = some .encrypt) :
    exec .encrypt s = .next (finish { s with
      dout := encryptBlock s.acfg.w.toNat s.acfg.alpha.toNat s.acfg.beta.toNat (primaryKeys s)
        (truncBlock s.acfg.bs.toNat s.din) }) :=
  runCommand_completes hp rfl

theorem exec_decrypt_completes (hp : s.pending = some .decrypt) :
    exec .decrypt s = .next (finish { s with
      dout := decryptBlock s.acfg.w.toNat s.acfg.alpha.toNat s.acfg.beta.toNat (primaryKeys s)
        (truncBlock s.acfg.bs.toNat s.din) }) :=
  runCommand_completes hp rfl

end Sys2Proof.Machine

namespace Sys2Proof.Safety

open Sys2Proof.Machine Sys2Proof.Terms

variable {c : Instr} {s t : State}

/-- ENCRYPT or DECRYPT in flight has passed its check: the primary engine is keyed (R87). -/
theorem keyed_of_pending (hs : Coherent s) (hp : s.pending = some c) (hc : c = .encrypt ∨ c = .decrypt) :
    s.keyed = true := by
  obtain ⟨-, -, hcheck⟩ := hs.sequencer c hp
  rcases hc with rfl | rfl <;> simpa [acceptCheck, checkKeyed] using hcheck

/-- The block of a keyed primary engine is two of its words, of at most 64 bits (R60, R64). -/
theorem acfg_of_keyed (hs : Coherent s) (hk : s.keyed = true) :
    s.acfg.bs.toNat = 2 * s.acfg.w.toNat ∧ s.acfg.w.toNat ≤ 64 := by
  obtain ⟨-, hlatched⟩ := hs.primary
  obtain ⟨r, hr, -, hacfg, -⟩ := hlatched hk
  obtain ⟨hw, -, hbs, hwle, -⟩ := configTable_row hr
  rw [hacfg, hw]
  exact ⟨hbs, hwle⟩

/-- Settles O31: DECRYPT uses the round keys ENCRYPT used, DOUT is a block already, and the codec undoes itself. -/
theorem machineRoundTrip : Obligations.MachineRoundTrip := by
  intro s hs hp
  obtain ⟨hbs, hw⟩ := acfg_of_keyed hs (keyed_of_pending hs hp (.inl rfl))
  refine ⟨_, _, exec_encrypt_completes hp, exec_decrypt_completes rfl, ?_⟩
  change (decryptBlock s.acfg.w.toNat s.acfg.alpha.toNat s.acfg.beta.toNat (primaryKeys s) (truncBlock s.acfg.bs.toNat
    (encryptBlock s.acfg.w.toNat s.acfg.alpha.toNat s.acfg.beta.toNat (primaryKeys s)
      (truncBlock s.acfg.bs.toNat s.din)))).toNat = _
  rw [hbs, truncBlock_of_lt (encryptBlock_lt ..), decryptBlock_encryptBlock hw, toNat_truncBlock,
    toNat_truncBlock, Nat.mod_mod]

/-- Settles O33: what the codec joins is a block of two words, which is `acfg.bs` bits in a coherent state. -/
theorem doutAboveTheBlockIsZero : Obligations.DoutAboveTheBlockIsZero := by
  intro c s t hs hp h
  obtain ⟨u, hu, rfl⟩ := exec_completed hp h
  constructor
  · intro hc
    obtain ⟨hbs, -⟩ := acfg_of_keyed hs (keyed_of_pending hs hp hc)
    rcases hc with rfl | rfl <;> cases hu
    · exact (encryptBlock_lt ..).trans_eq (congrArg _ hbs.symm)
    · exact (decryptBlock_lt ..).trans_eq (congrArg _ hbs.symm)
  · rintro (rfl | rfl) <;> cases hu
    · exact encryptBlock_lt ..
    · exact decryptBlock_lt ..

/-- Settles O48: the file is a schedule's words of `acfg.w` bits, and the schedule ends at `acfg.rounds`. -/
theorem roundKeyFileHoldsWords : Obligations.RoundKeyFileHoldsWords := by
  intro s hs
  obtain ⟨habsent, hlatched⟩ := hs.primary
  constructor
  · intro hk i hi
    obtain ⟨r, hr, key, hacfg, hrk⟩ := hlatched hk
    obtain ⟨hw, hrounds, -, hwle, hpos, hm⟩ := configTable_row hr
    rw [hacfg, hrk, hw, hrounds, entry_keyFile _ hwle hi]
    refine ⟨fun _ => BitVec.isLt _, fun habove => ?_⟩
    rw [List.getD_eq_default _ _ ((length_keySchedule key hpos hm).trans_le habove)]
    rfl
  · intro hk i hi
    obtain ⟨-, hrk⟩ := habsent hk
    rw [hrk, entry_replicate_zero]

end Sys2Proof.Safety
end

section
/-! The register map (R38, R41): every aligned offset is a register's or reserved, and which registers are arguments (R43)
is said by their offsets. -/

namespace Sys2Proof.Machine

theorem aligned_iff {a : Offset} : Offset.aligned a = true ↔ a.toNat % 4 = 0 := beq_iff_eq

@[simp] theorem toNat_regOffset_key (j : Fin 8) : (regOffset (.key j)).toNat = 0x20 + 4 * j.val := by
  simp only [regOffset, BitVec.toNat_ofNat]; omega

@[simp] theorem toNat_regOffset_din (j : Fin 4) : (regOffset (.din j)).toNat = 0x40 + 4 * j.val := by
  simp only [regOffset, BitVec.toNat_ofNat]; omega

@[simp] theorem toNat_regOffset_dout (j : Fin 4) : (regOffset (.dout j)).toNat = 0x50 + 4 * j.val := by
  simp only [regOffset, BitVec.toNat_ofNat]; omega

@[simp] theorem toNat_regOffset_table (i : Fin 10) : (regOffset (.table i)).toNat = 0x80 + 4 * i.val := by
  simp only [regOffset, BitVec.toNat_ofNat]; omega

/-- The offsets that R41 reserves, among the aligned ones. -/
abbrev ReservedOffset (a : Offset) : Prop :=
  a.toNat = 0x1C ∨ a.toNat = 0x74 ∨ a.toNat = 0x78 ∨ a.toNat = 0x7C ∨ 0xA8 ≤ a.toNat

/-- The offsets of the argument registers (R43), among the aligned ones. -/
abbrev ArgumentOffset (a : Offset) : Prop :=
  a.toNat ∈ [0x04, 0x10, 0x14, 0x18] ∨ (0x20 ≤ a.toNat ∧ a.toNat ≤ 0x3C) ∨ (0x40 ≤ a.toNat ∧ a.toNat ≤ 0x4C)

theorem argumentOffset_iff {a : Offset} : ArgumentOffset a ↔
    (a.toNat = 0x04 ∨ a.toNat = 0x10 ∨ a.toNat = 0x14 ∨ a.toNat = 0x18) ∨
      (0x20 ≤ a.toNat ∧ a.toNat ≤ 0x3C) ∨ (0x40 ≤ a.toNat ∧ a.toNat ≤ 0x4C) := by
  simp only [ArgumentOffset, List.mem_cons, List.not_mem_nil, or_false]

/-- The map has 64 aligned offsets, and the reserved ones are those at which no register stands. -/
theorem regAt_eq_none_iff {a : Offset} (ha : a.toNat % 4 = 0) : regAt a = none ↔ ReservedOffset a := by
  revert a; decide

theorem regOffset_or_reserved {a : Offset} (ha : a.toNat % 4 = 0) : (∃ r, a = regOffset r) ∨ ReservedOffset a := by
  cases hr : regAt a with
  | some r => exact .inl ⟨r, (regOffset_of_regAt hr).symm⟩
  | none => exact .inr ((regAt_eq_none_iff ha).1 hr)

theorem isArgument_iff (r : Reg) : isArgument r = true ↔ ArgumentOffset (regOffset r) := by
  cases r with
  | key j | din j =>
    simp only [isArgument, argumentOffset_iff, toNat_regOffset_key, toNat_regOffset_din, true_iff]
    omega
  | dout j | table j =>
    simp only [isArgument, argumentOffset_iff, toNat_regOffset_dout, toNat_regOffset_table, Bool.false_eq_true,
      false_iff]
    omega
  | _ => decide

theorem memRead_reserved {a : Offset} (ha : a.toNat % 4 = 0) (hr : ReservedOffset a) (s : State) :
    memRead a .word s = .ok 0 := by
  simp [memRead, accessRefusal_none.2 ⟨rfl, aligned_iff.2 ha⟩, (regAt_eq_none_iff ha).2 hr]

theorem memWrite_reserved {a : Offset} (ha : a.toNat % 4 = 0) (hr : ReservedOffset a) (v : BusWord) (s : State) :
    memWrite a .word v s = .next s := by
  simp [memWrite, accessRefusal_none.2 ⟨rfl, aligned_iff.2 ha⟩, (regAt_eq_none_iff ha).2 hr]

/-- Settles O36: no register stands at these offsets. -/
theorem reservedOffsetsReadZeroAndIgnoreWrites : Obligations.ReservedOffsetsReadZeroAndIgnoreWrites :=
  fun _ v s ha hr => ⟨memRead_reserved ha hr s, memWrite_reserved ha hr v s⟩

end Sys2Proof.Machine
end

section
/-! The values of the reads (R39): the layouts of the registers over the natural numbers, then every register and every
aligned offset. -/

namespace Sys2Proof.Machine

theorem toNat_sizesWord (ks : BitVec 9) (rounds bs : BitVec 8) :
    (sizesWord ks rounds bs).toNat = ks.toNat <<< 16 ||| rounds.toNat <<< 8 ||| bs.toNat := by
  simp only [sizesWord, BitVec.toNat_append, Nat.shiftLeft_or_distrib, ← Nat.shiftLeft_add]
  simp

theorem toNat_v1ParamsWord (rounds : BitVec 7) (nkeys : BitVec 3) (wordBits : BitVec 7) :
    (v1ParamsWord rounds nkeys wordBits).toNat = rounds.toNat <<< 16 ||| nkeys.toNat <<< 8 ||| wordBits.toNat := by
  simp only [v1ParamsWord, BitVec.toNat_append, Nat.shiftLeft_or_distrib, ← Nat.shiftLeft_add]
  simp

theorem toNat_v1RotWord (rotL rotR : BitVec 6) : (v1RotWord rotL rotR).toNat = rotL.toNat <<< 8 ||| rotR.toNat := by
  simp only [v1RotWord, BitVec.toNat_append, Nat.shiftLeft_or_distrib, ← Nat.shiftLeft_add]
  simp

theorem bit_eq_toNat (b : Bool) : Pseudocode.bit b = b.toNat := by cases b <;> rfl

theorem toNat_errcodeField (e : Option ErrorCode) : (errcodeField e).toNat = Pseudocode.codeOf e := by
  rcases e with _ | e
  · rfl
  · cases e <;> rfl

theorem toNat_busy (s : State) : (busy s).toNat = if s.pending = none then 0 else 1 := by
  cases h : s.pending <;> simp [busy, h]

theorem toNat_irqEnWord (e : IrqEn) :
    (irqEnWord e).toNat = Pseudocode.bit e.doneIe + 2 * Pseudocode.bit e.errIe + 4 * Pseudocode.bit e.ovrIe := by
  obtain ⟨d, e, o⟩ := e
  revert d e o; decide

/-- The fields of STATUS, which the model lists from the highest down and R22 from the lowest up. -/
theorem toNat_statusWord (s : State) : (statusWord s).toNat = Pseudocode.memRead s 0x08 := by
  simp only [statusWord, BitVec.toNat_append, Nat.shiftLeft_or_distrib, ← Nat.shiftLeft_add, BitVec.toNat_ofBool,
    toNat_busy, toNat_errcodeField]
  simp [Pseudocode.memRead, bit_eq_toNat]
  ac_rfl

theorem toNat_getWord {n : Nat} (x : BitVec n) (j : Nat) : (getWord x j).toNat = (x.toNat >>> (32 * j)) % 2 ^ 32 :=
  BitVec.extractLsb'_toNat ..

/-- Every register reads the value R39 gives at its offset. -/
theorem toNat_readReg (r : Reg) (s : State) : (readReg r s).toNat = Pseudocode.memRead s (regOffset r).toNat := by
  cases r with
  | id | cmd | tableCount => rfl
  | status => exact toNat_statusWord s
  | irqEn => exact toNat_irqEnWord _
  | config => exact (toNat_sizesWord ..).trans (by simp [Pseudocode.memRead, regOffset])
  | v1Cfg0 => exact toNat_v1ParamsWord ..
  | v1Cfg1 => exact toNat_v1RotWord ..
  | key j =>
    simp (disch := omega) only [toNat_regOffset_key, Pseudocode.memRead, if_pos, if_neg]
    rfl
  | din j =>
    have hj : (0x40 + 4 * j.val - 0x40) / 4 = j.val := by omega
    simp (disch := omega) only [toNat_regOffset_din, Pseudocode.memRead, if_pos, if_neg, hj]
    exact toNat_getWord ..
  | dout j =>
    have hj : (0x50 + 4 * j.val - 0x50) / 4 = j.val := by omega
    simp (disch := omega) only [toNat_regOffset_dout, Pseudocode.memRead, if_pos, if_neg, hj]
    exact toNat_getWord ..
  | acfg0 => exact toNat_sizesWord ..
  | acfg1 =>
    simp only [readReg, BitVec.toNat_append, Nat.shiftLeft_or_distrib, ← Nat.shiftLeft_add]
    simp [Pseudocode.memRead, regOffset]
  | v1Acfg0 => exact toNat_v1ParamsWord ..
  | v1Acfg1 => exact toNat_v1RotWord ..
  | table i =>
    have hi : (0x80 + 4 * i.val - 0x80) / 4 = i.val := by omega
    have hrow : ∀ i : Fin 10, (tableWordAt i.val).toNat = Pseudocode.tableValues.getD i.val 0 := by decide
    simp (disch := omega) only [toNat_regOffset_table, Pseudocode.memRead, if_pos, if_neg, hi]
    exact hrow i

theorem pseudocode_memRead_reserved {a : Offset} (hr : ReservedOffset a) (s : State) :
    Pseudocode.memRead s a.toNat = 0 := by
  simp (disch := omega) only [Pseudocode.memRead, if_neg]

/-- Every aligned read answers the value R39 gives. -/
theorem memRead_value {a : Offset} (ha : a.toNat % 4 = 0) (s : State) :
    ∃ v, memRead a .word s = .ok v ∧ v.toNat = Pseudocode.memRead s a.toNat := by
  rcases regOffset_or_reserved ha with ⟨r, rfl⟩ | hr
  · exact ⟨_, memRead_reg r s, toNat_readReg r s⟩
  · exact ⟨0, memRead_reserved ha hr s, (pseudocode_memRead_reserved hr s).symm⟩

/-- The host's read observes what `memRead` answers. -/
theorem hostRead_ok {a : Offset} {size : AccessSize} {v : BusWord} {s : State} (h : memRead a size s = .ok v) :
    hostRead a size s = .next (observe v s) := by
  simp [hostRead, h]

/-- Settles O34: the value is that of the register or of the reserved offset, and a read only adds to what the host
has seen. -/
theorem memReadFollowsTheRegisterMap : Obligations.MemReadFollowsTheRegisterMap := by
  intro a s ha
  obtain ⟨v, hread, hv⟩ := memRead_value ha s
  exact ⟨v, observe v s, hread, hv, hostRead_ok hread, rfl⟩

end Sys2Proof.Machine
end

section
/-! The effects of the writes (R40, R43): STATUS and IRQ_EN, the argument registers busy and idle, the command dropped while
busy, and the offsets at which a write does nothing. -/

namespace Sys2Proof.Machine

open Sys2Proof.Terms

variable {s : State}

theorem memWrite_busy {r : Reg} (h : s.pending ≠ none) (hr : isArgument r = true) (v : BusWord) :
    memWrite (regOffset r) .word v s = .next (dropWrite s) := by
  rw [memWrite_reg, writeReg_busy h hr]

theorem memWrite_idle (h : s.pending = none) (r : Reg) (v : BusWord) :
    memWrite (regOffset r) .word v s = performWrite r v s := by
  rw [memWrite_reg, writeReg_idle h]

/-- Settles O8: what a command does in this state is the dropped write. -/
theorem anotherCommandInFlightDropsTheWrite : Obligations.AnotherCommandInFlightDropsTheWrite := by
  intro c p s hp hne
  rw [exec_eq_runCommand]
  exact runCommand_other hp hne

/-- The registers that are neither arguments nor STATUS nor IRQ_EN are read-only. -/
theorem memWrite_readOnly {r : Reg} (hr : isArgument r = false) (hs : r ≠ .status) (hi : r ≠ .irqEn) (v : BusWord)
    (s : State) : memWrite (regOffset r) .word v s = .next s := by
  rw [memWrite_reg]
  cases r with
  | status => exact absurd rfl hs
  | irqEn => exact absurd rfl hi
  | cmd | config | v1Cfg0 | v1Cfg1 | key | din => cases hr
  | _ => rfl

/-- A STATUS write as a choice on each bit (R22). -/
theorem acknowledge_eq_ite (v : BusWord) (s : State) : acknowledge v s =
    { s with
      done := if v.getLsbD 1 then false else s.done, err := if v.getLsbD 2 then false else s.err,
      errcode := if v.getLsbD 2 then none else s.errcode, ovr := if v.getLsbD 3 then false else s.ovr } := by
  have hclear (x b : Bool) : (x && !b) = if b then false else x := by cases b <;> simp
  simp only [acknowledge, hclear]

/-- The enables are the low three bits of the word (R23). -/
theorem bits_irqEnOf (v : BusWord) : Pseudocode.bit (irqEnOf v).doneIe + 2 * Pseudocode.bit (irqEnOf v).errIe +
    4 * Pseudocode.bit (irqEnOf v).ovrIe = v.toNat % 8 := by
  simp only [irqEnOf, bit_eq_toNat, ← BitVec.testBit_toNat, Nat.toNat_testBit]
  omega

/-- Every bit of a register word lies within that word's mask or outside it, so it is the new word's or the old one's. -/
theorem getWord_setWord {n i : Nat} (x : BitVec n) (j : Nat) (v : BusWord) (hi : i < n / 32) :
    getWord (setWord x j v) i = if i = j then v else getWord x i := by
  refine BitVec.eq_of_getLsbD_eq fun k hk => ?_
  have hin : 32 * i + k < n := by omega
  have hmask : 0xFFFFFFFF#32 = BitVec.allOnes 32 := rfl
  simp only [getWord, setWord, hmask, BitVec.getLsbD_extractLsb', BitVec.getLsbD_or, BitVec.getLsbD_and,
    BitVec.getLsbD_not, BitVec.getLsbD_shiftLeft, BitVec.getLsbD_setWidth, BitVec.getLsbD_allOnes]
  by_cases h : i = j
  · subst h
    have hkn : k < n := by omega
    simp [hk, hin, hkn]
  · have hout : 32 * i + k < 32 * j ∨ 32 ≤ 32 * i + k - 32 * j := by omega
    rcases hout with hbelow | habove
    · simp [h, hk, hin, hbelow]
    · simp [h, hk, hin, habove]

/-- Replacing a register word of a wide register is what R40 and R45 say it is. -/
theorem wordReplaced_setWord {n : Nat} (x : BitVec n) (j : Nat) (v : BusWord) : WordReplaced x (setWord x j v) j v := by
  intro i hi
  rw [← toNat_getWord, ← toNat_getWord, getWord_setWord x j v hi]
  split <;> rfl

/-- Settles O35: an aligned offset is a register's or reserved, and a register is an argument, STATUS, IRQ_EN or
read-only. -/
theorem memWriteFollowsTheRegisterMap : Obligations.MemWriteFollowsTheRegisterMap := by
  intro v s
  refine ⟨?status, ⟨irqEnOf v, memWrite_reg .irqEn v s, bits_irqEnOf v⟩, ?busy, ?idle, ?ignored⟩
  case status =>
    rw [← acknowledge_eq_ite]
    exact memWrite_reg .status v s
  case busy =>
    intro hp a ha harg
    rcases regOffset_or_reserved ha with ⟨r, rfl⟩ | hr
    · exact memWrite_busy hp ((isArgument_iff r).2 harg) v
    · have := argumentOffset_iff.1 harg
      omega
  case idle =>
    intro hp
    exact ⟨memWrite_idle hp .cmd v,
      ⟨_, memWrite_idle hp .config v, BitVec.extractLsb'_toNat .., BitVec.extractLsb'_toNat ..⟩,
      ⟨_, memWrite_idle hp .v1Cfg0 v, BitVec.extractLsb'_toNat .., BitVec.extractLsb'_toNat ..,
        BitVec.extractLsb'_toNat ..⟩,
      ⟨_, memWrite_idle hp .v1Cfg1 v, BitVec.extractLsb'_toNat .., BitVec.extractLsb'_toNat ..⟩,
      fun j hj => ⟨_, memWrite_idle hp (.key ⟨j, hj⟩) v, wordReplaced_setWord _ j v⟩,
      fun j hj => ⟨_, memWrite_idle hp (.din ⟨j, hj⟩) v, wordReplaced_setWord _ j v⟩⟩
  case ignored =>
    intro a ha hnamed hkey hdin
    rcases regOffset_or_reserved ha with ⟨r, rfl⟩ | hr
    · have hsub : [0x04, 0x10, 0x14, 0x18] ⊆ [0x04, 0x08, 0x0C, 0x10, 0x14, 0x18] := by decide
      have harg : ¬ArgumentOffset (regOffset r) := by
        rintro (h | h | h)
        · exact hnamed (hsub h)
        · exact hkey h
        · exact hdin h
      refine memWrite_readOnly (by rwa [← isArgument_iff, Bool.not_eq_true] at harg) ?_ ?_ v s
      · rintro rfl; exact hnamed (by decide)
      · rintro rfl; exact hnamed (by decide)
    · exact memWrite_reserved ha hr v s

end Sys2Proof.Machine
end

section
/-! Which accesses have a meaning (R42): the others are refused, by a bus access and by the step that makes it. -/

namespace Sys2Proof.Machine

theorem accessRefusal_some {a : Offset} {size : AccessSize} (h : size = .word → a.toNat % 4 ≠ 0) :
    ∃ r, accessRefusal a size = some r := by
  refine Option.ne_none_iff_exists'.1 fun hnone => ?_
  obtain ⟨hsize, ha⟩ := accessRefusal_none.1 hnone
  exact h hsize (aligned_iff.1 ha)

theorem memRead_refused {a : Offset} {size : AccessSize} {r : Refusal} (h : accessRefusal a size = some r) (s : State) :
    memRead a size s = .error r := by
  simp [memRead, h]

theorem memWrite_refused {a : Offset} {size : AccessSize} {r : Refusal} (h : accessRefusal a size = some r) (v : BusWord)
    (s : State) : memWrite a size v s = .refused r := by
  simp [memWrite, h]

/-- Settles O37: `accessRefusal` answers for exactly these accesses, and no other write stops. -/
theorem onlyAlignedWordAccessesHaveAMeaning : Obligations.OnlyAlignedWordAccessesHaveAMeaning := by
  refine fun a size v s => ⟨fun h => ?_, ?_⟩
  · obtain ⟨r, hr⟩ := accessRefusal_some (imp_iff_not_or.2 h)
    exact ⟨r, memRead_refused hr s, memWrite_refused hr v s⟩
  · rintro rfl ha
    obtain ⟨x, hread, -⟩ := memRead_value ha s
    obtain ⟨t, hwrite⟩ : ∃ t, memWrite a .word v s = .next t :=
      performInput_runs (x := .write a .word v) s (aligned_iff.2 ha)
    exact ⟨⟨x, hread⟩, fun r hr => nomatch hwrite.symm.trans hr⟩

end Sys2Proof.Machine
end

section
/-! The steps that make an access: what the host's reads and dropped writes leave, what moves OVR, and that no step from a
coherent state stops while the host keeps its duty. -/

namespace Sys2Proof.Machine

open Sys2Proof.Safety Sys2Proof.Terms

variable {s t : State} {x : Input} {rest : List Input}

/-- In the host's turn the step is its next input, with some count left to the completion. -/
theorem step_hostTurn (h : HostTurnNow s x rest) :
    ∃ n, step s = performInput x { s with inputs := rest, latencyLeft := n } := by
  obtain ⟨hi, hturn⟩ := h
  rcases step_cases (s := s) rfl with ⟨c, hp, hd, -⟩ | ⟨-, hnil, -⟩ | ⟨y, tail, n, hcons, -, hstep⟩
  · simp [hp, hd] at hturn
  · simp [hnil] at hi
  · obtain ⟨rfl, rfl⟩ := List.cons.inj (hi.symm.trans hcons)
    exact ⟨n, hstep⟩

/-- Settles O38: the step is the host's write, which is dropped (R43). -/
theorem busyWritesAreDropped : Obligations.BusyWritesAreDropped := by
  intro s r v rest hp hd hr hi
  obtain ⟨n, hstep⟩ := step_hostTurn ⟨hi, .inr hd⟩
  exact ⟨n, hstep.trans (memWrite_busy (s := { s with inputs := rest, latencyLeft := n }) hp hr v)⟩

/-- Settles O39: the step is the host's read, and the value does not depend on the host's lists. -/
theorem readsHaveNoSideEffects : Obligations.ReadsHaveNoSideEffects := by
  intro s a rest ha h
  obtain ⟨n, hstep⟩ := step_hostTurn h
  obtain ⟨v, hread, hv⟩ := memRead_value ha { s with inputs := rest, latencyLeft := n }
  exact ⟨_, v, hstep.trans (hostRead_ok hread), rfl, rfl, rfl, hv⟩

/-- Settles O53: a completion and every input but a dropped write, a STATUS write and `rst` keep OVR. -/
theorem ovrIsSticky : Obligations.OvrIsSticky := by
  intro s t h
  rcases step_next h with ⟨c, u, -, -, hu, rfl⟩ | ⟨-, -, rfl⟩ | ⟨x, rest, n, hi, hturn, hx⟩
  · obtain ⟨-, -, -, -, -, -, hovr, -⟩ := completionEffect_frame hu
    simp +contextual [hovr]
  · simp +contextual
  · cases hx
    case dropped r v hr hp => exact ⟨fun _ _ => ⟨hp, r, v, hr, rest, hi, hturn⟩, nofun⟩
    case acknowledged v =>
      exact ⟨by simp +contextual, fun hs ht => .inl ⟨v, ⟨rest, hi, hturn⟩, by simpa [hs] using ht⟩⟩
    case rst => exact ⟨nofun, fun _ _ => .inr ⟨rest, hi, hturn⟩⟩
    all_goals simp +contextual

/-- An input leaves the inputs after it, and a `poll` that goes on stands before them again. -/
theorem inputEffect_inputs (h : InputEffect x s t) : t.inputs = s.inputs ∨ t.inputs = x :: s.inputs := by
  cases h with
  | pollAgain => exact .inr rfl
  | accepted c => exact .inl (accept_inputs ..)
  | _ => exact .inl rfl

/-- An input that is not well formed is refused (R42). -/
theorem performInput_refused (s : State) (hx : x.wf = false) : ∃ r, performInput x s = .refused r := by
  cases x with
  | rst => cases hx
  | write a size v =>
    obtain ⟨r, hr⟩ := accessRefusal_some (a := a) (size := size) (by simpa [Input.wf, Offset.aligned] using hx)
    exact ⟨r, memWrite_refused hr v s⟩
  | read a size =>
    obtain ⟨r, hr⟩ := accessRefusal_some (a := a) (size := size) (by simpa [Input.wf, Offset.aligned] using hx)
    exact ⟨r, by simp [performInput, hostRead, memRead_refused hr]⟩
  | poll a mask value =>
    obtain ⟨r, hr⟩ := accessRefusal_some (a := a) (size := .word) (by simpa [Input.wf, Offset.aligned] using hx)
    exact ⟨r, by simp [performInput, hostPoll, memRead_refused hr]⟩

theorem performInput_not_fault (x : Input) (s : State) (f : Fault) : performInput x s ≠ .fault f := by
  intro h
  cases hx : x.wf with
  | true =>
    obtain ⟨t, ht⟩ := performInput_runs s hx
    exact nomatch ht.symm.trans h
  | false =>
    obtain ⟨r, hr⟩ := performInput_refused s hx
    exact nomatch hr.symm.trans h

/-- In a coherent state the effect of a command in flight is defined: its check still passes (R51). -/
theorem completion_runs {c : Instr} (hs : Coherent s) (hp : s.pending = some c) :
    ∃ u, completionEffect c s = .ok u := by
  obtain ⟨-, -, hcheck⟩ := hs.sequencer c hp
  exact completionEffect_ok_of_check hcheck

theorem step_not_fault (hs : Coherent s) (f : Fault) : step s ≠ .fault f := by
  intro h
  rcases step_cases h with ⟨c, hp, -, ho⟩ | ⟨-, -, ho⟩ | ⟨x, rest, n, -, -, ho⟩
  · obtain ⟨u, hu⟩ := completion_runs hs hp
    simp [complete, hu] at ho
  · cases ho
  · exact performInput_not_fault _ _ _ ho.symm

theorem step_runs (hs : Coherent s) (hduty : HostKeepsDuty s) : ∃ t, step s = .next t := by
  rcases step_cases (s := s) rfl with ⟨c, hp, -, ho⟩ | ⟨-, -, ho⟩ | ⟨x, rest, n, hi, -, ho⟩
  · obtain ⟨u, hu⟩ := completion_runs hs hp
    exact ⟨finish u, by rw [ho, hu]; rfl⟩
  · exact ⟨s, ho⟩
  · rw [ho]
    exact performInput_runs _ (hduty x (by simp [hi]))

theorem step_keeps_duty (hduty : HostKeepsDuty s) (h : step s = .next t) : HostKeepsDuty t := by
  have hsub : t.inputs ⊆ s.inputs := by
    rcases step_next h with ⟨c, u, -, -, hu, rfl⟩ | ⟨-, -, rfl⟩ | ⟨x, rest, n, hi, -, hx⟩
    · obtain ⟨-, -, -, -, -, -, -, -, -, hinputs, -⟩ := completionEffect_frame hu
      simp [hinputs]
    · exact List.Subset.refl _
    · rcases inputEffect_inputs hx with ht | ht <;> simp [ht, hi]
  exact fun x hx => hduty x (hsub hx)

/-- Settles O47: a completion's check still passes, and only an access that is not well formed is refused. -/
theorem coherentStatesNeverStop : Obligations.CoherentStatesNeverStop := by
  refine fun s hs => ⟨step_not_fault hs, fun hduty => ?_⟩
  obtain ⟨t, ht⟩ := step_runs hs hduty
  exact ⟨t, ht, step_keeps_duty hduty ht⟩

end Sys2Proof.Machine
end

section
/-! The command words (R48, R49): encoding and decoding are inverse to each other, and every word but the eight is illegal. -/

namespace Sys2Proof.Machine

theorem decode_encode (c : Instr) : decode (encode c) = .ok c := by
  have hword : Laws.CommandWord.Statement c := by
    cases c with
    | keyload => exact Laws.CommandWord.keyload
    | encrypt => exact Laws.CommandWord.encrypt
    | decrypt => exact Laws.CommandWord.decrypt
    | clear => exact Laws.CommandWord.clear
    | v1Keyload => exact Laws.CommandWord.v1Keyload
    | v1Encrypt => exact Laws.CommandWord.v1Encrypt
    | v1Decrypt => exact Laws.CommandWord.v1Decrypt
    | v1Clear => exact Laws.CommandWord.v1Clear
  obtain ⟨-, -, hdecode⟩ := hword
  exact hdecode

theorem decode_eq_ok_iff {v : BusWord} {c : Instr} : decode v = .ok c ↔ v = encode c := by
  refine ⟨eq_encode_of_decode, fun hv => ?_⟩
  rw [hv, decode_encode]

theorem toNat_encode_mem (c : Instr) : (encode c).toNat ∈ [1, 2, 3, 4, 9, 10, 11, 12] := by
  cases c <;> decide

theorem decode_illegal {v : BusWord} (hv : v.toNat ∉ [1, 2, 3, 4, 9, 10, 11, 12]) : decode v = .error .illegal := by
  cases hd : decode v with
  | ok c =>
    obtain rfl := eq_encode_of_decode hd
    exact absurd (toNat_encode_mem c) hv
  | error e => cases e; rfl

/-- Settles O2: the decoder inverts the encoder, and an idle CORE turns an illegal word into the error. -/
theorem decodeAcceptsExactlyTheCommandWords : Obligations.DecodeAcceptsExactlyTheCommandWords := by
  refine fun v => ⟨fun _ => decode_eq_ok_iff, fun hv => ⟨decode_illegal hv, fun s hp => ?_⟩⟩
  calc memWrite 0x04 .word v s
    _ = acceptWord v s := memWrite_idle hp .cmd v
    _ = .next (raise .illegalCommand (clearResult s)) := acceptWord_illegal (decode_illegal hv)

/-- Settles O1: each literal is the word of its command, and the fields of each word are those of the format. -/
theorem tableWordsDecodeToTheirCommands : Obligations.TableWordsDecodeToTheirCommands := by
  refine ⟨⟨decode_encode .keyload, decode_encode .encrypt, decode_encode .decrypt, decode_encode .clear,
    decode_encode .v1Keyload, decode_encode .v1Encrypt, decode_encode .v1Decrypt, decode_encode .v1Clear⟩, fun c => ?_⟩
  cases c <;> decide

end Sys2Proof.Machine
end

section
/-! What the two halves of a command do to CORE: the accept by its check (R47, R52), the completion without an error (R51),
and the frame of both (R50). -/

namespace Sys2Proof.Machine

open Sys2Proof.Safety

/-- With no command in flight, `exec` is the accept. -/
theorem exec_idle (c : Instr) {s : State} (hp : s.pending = none) :
    exec c s = .next (accept c (acceptCheck c s) s) := by
  rw [exec_eq_runCommand, runCommand_idle hp]

/-- Code 0 of R109 is no error's. -/
theorem codeOf_some_ne_zero (e : ErrorCode) : Pseudocode.codeOf (some e) ≠ 0 := by cases e <;> decide

/-- Settles O7: the check answers the code of the pseudocode, and the accept follows its answer. -/
theorem acceptFollowsTheChecks : Obligations.AcceptFollowsTheChecks := by
  intro c s hp
  rw [exec_idle c hp, ← codeOf_acceptCheck]
  cases acceptCheck c s with
  | none => exact ⟨fun _ => ⟨_, _, rfl⟩, fun hfails => absurd rfl hfails⟩
  | some e => exact ⟨fun hpasses => absurd hpasses (codeOf_some_ne_zero e), fun _ => ⟨e, rfl, rfl⟩⟩

/-- Settles O9: no effect writes ERR or ERRCODE, and the end of the completion sets DONE. -/
theorem completionRaisesNoError : Obligations.CompletionRaisesNoError := by
  intro c s t hp h
  obtain ⟨u, hu, rfl⟩ := exec_completed hp h
  obtain ⟨-, -, -, -, -, herr, -, herrcode, -⟩ := completionEffect_frame hu
  exact ⟨herr, herrcode, rfl⟩

/-- Settles O56: an accept writes only STATUS and the sequencer, a completion also what its effect writes, and a dropped write
only OVR. -/
theorem commandsLeaveTheirFrame : Obligations.CommandsLeaveTheirFrame := by
  intro c s t h
  rw [exec_eq_runCommand] at h
  rcases runCommand_next h with ⟨-, rfl⟩ | ⟨hp, u, hu, rfl⟩ | ⟨p, hp, hne, rfl⟩
  · simp
  · obtain ⟨hconfig, hv1cfg0, hv1cfg1, hirqEn, -, -, hovr, -, -, hinputs, hseen, -⟩ := completionEffect_frame hu
    obtain ⟨-, -, hkeyDin, -⟩ := completionEffect_writes hu
    exact ⟨⟨hconfig, hv1cfg0, hv1cfg1, hirqEn, hinputs, hseen⟩, hkeyDin, fun hother => absurd hp hother, fun _ => hovr⟩
  · simp [hp, hne]

end Sys2Proof.Machine
end

section
/-! The steps that run a command (R47, R51, R137) and the step of a `poll` (R55). -/

namespace Sys2Proof.Machine

/-- Settles O3: the step is the host's write to CMD, which an idle CORE decodes. -/
theorem stepRunsTheDecodedCommand : Obligations.StepRunsTheDecodedCommand := by
  intro s w c rest hp hi hd
  calc step s
    _ = performInput (.write 0x04 .word w) { s with inputs := rest } := by rw [step_idle hp, hostTurn_cons hi]
    _ = acceptWord w { s with inputs := rest } := memWrite_idle (s := { s with inputs := rest }) hp .cmd w
    _ = exec c { s with inputs := rest } := acceptWord_ok hd

/-- A completion that is not due leaves the step to the host, one access nearer to it (R134). -/
theorem step_notDue {s : State} {c : Instr} (hp : s.pending = some c) (hd : completionDue s = false) :
    step s = hostTurn { s with latencyLeft := s.latencyLeft - 1 } := by
  simp [step, hp, hd]

/-- A completion is not put off once the host has no access left (R138). -/
theorem inputs_ne_nil_of_notDue {s : State} (hd : completionDue s = false) : s.inputs ≠ [] := by
  intro hi
  simp [completionDue, hi] at hd

/-- Settles O4: a completion that is not due finds an input before it. -/
theorem stepPlacesTheCompletion : Obligations.StepPlacesTheCompletion := by
  refine fun s c hp => ⟨step_completes hp, fun hd => ?_⟩
  obtain ⟨x, rest, hi⟩ := List.exists_cons_of_ne_nil (inputs_ne_nil_of_notDue hd)
  exact ⟨x, rest, hi, (step_notDue hp hd).trans (hostTurn_cons hi)⟩

/-- Settles O5: the word is placed as the host's next write to CMD, in an idle CORE. -/
theorem fetchedWordIsRunByTheNextStep : Obligations.FetchedWordIsRunByTheNextStep :=
  fun _ _ _ => step_withFetchWord

/-- A `poll` observes what `memRead` answers, and stands again before the other inputs unless that is the value. -/
theorem hostPoll_ok {a : Offset} {v : BusWord} {s : State} (h : memRead a .word s = .ok v) (mask value : BusWord) :
    hostPoll a mask value s = .next { observe v s with
      inputs := if v &&& mask = value then s.inputs else .poll a mask value :: s.inputs } := by
  simp [hostPoll, h]

/-- Settles O40: the step is one read of the poll, and the test on the word is the test on its value. -/
theorem pollRepeatsUntilTheValue : Obligations.PollRepeatsUntilTheValue := by
  intro s a mask value rest ha h
  obtain ⟨n, hstep⟩ := step_hostTurn h
  obtain ⟨v, hread, hv⟩ := memRead_value ha { s with inputs := rest, latencyLeft := n }
  have hvalue : v.toNat = Pseudocode.memRead s a.toNat := hv
  obtain ⟨hi, -⟩ := h
  refine ⟨_, v, hstep.trans (hostPoll_ok hread mask value), rfl, rfl, hvalue, ?_⟩
  simp only [BitVec.toNat_eq, BitVec.toNat_and, hvalue, hi]

end Sys2Proof.Machine
end

section
/-! The resolver on every pair of numbers: the configuration of a row of R57's table, and the two errors (R57 to R64). -/

namespace Sys2Proof.Machine

variable {bs ks rounds : Nat}

theorem mem_pseudocodeTable : (bs, ks, rounds) ∈ Pseudocode.table ↔ ⟨bs, ks, rounds⟩ ∈ configTable := by
  rw [show Pseudocode.table = configTable.map (fun r => (r.bs, r.ks, r.rounds)) from rfl]
  constructor
  · intro h
    obtain ⟨r, hr, hrow⟩ := List.mem_map.1 h
    cases hrow
    exact hr
  · exact fun h => List.mem_map.2 ⟨_, h, rfl⟩

/-- The block size of a row is one of the five, and no two rows have the same pair (R57). -/
theorem findRow_of_mem {r : TableRow} (hr : r ∈ configTable) : r.bs ∈ Config.blockSizes ∧ findRow r.bs r.ks = some r := by
  revert r; decide

theorem resolve_of_mem {r : TableRow} (hr : r ∈ configTable) : resolve r.bs r.ks = .ok (configOf r) := by
  obtain ⟨hb, hfind⟩ := findRow_of_mem hr
  simp [resolve, hb, hfind]

theorem resolve_invalidBlockSize (hb : bs ∉ Config.blockSizes) : resolve bs ks = .error .invalidBlockSize :=
  if_neg hb

theorem resolve_invalidKeySize (hb : bs ∈ Config.blockSizes) (hfind : findRow bs ks = none) :
    resolve bs ks = .error .invalidKeySize := by
  simp [resolve, hb, hfind]

/-- Settles O10: a row is the one found for its pair, and its configuration has R60's members by definition. -/
theorem resolveIsTheTable : Obligations.ResolveIsTheTable := by
  refine fun bs ks => ⟨fun rounds hrow => ?_, resolve_invalidBlockSize, fun hb hnone => ?_⟩
  · exact ⟨_, resolve_of_mem (mem_pseudocodeTable.1 hrow), rfl, rfl, rfl, rfl, rfl, rfl, rfl, rfl, rfl⟩
  · refine resolve_invalidKeySize hb (findRow_eq_none.2 fun hpair => ?_)
    obtain ⟨⟨_, _, rounds⟩, hrow, hkey⟩ := List.mem_map.1 hpair
    cases hkey
    exact hnone rounds hrow

/-- Settles O11: what `Resolve` answers is the configuration of one of the ten rows, and each of them fits. -/
theorem everyConfigurationFits : Obligations.EveryConfigurationFits := by
  intro bs ks c h
  obtain ⟨r, hr, rfl⟩ := resolve_ok h
  clear h
  revert r
  decide

end Sys2Proof.Machine
end

section
/-! The forward round on the values of its words (R74), and a list of words as an array of numbers. -/

namespace Sys2Proof.Machine

/-- `BitVec`'s sum keeps the low `w` bits, as `add_w` does, and a XOR of `w`-bit words needs no cut. -/
theorem toNat_fwd {w : Nat} (a b : Nat) (u l k : BitVec w) :
    ((fwd w a b u l k).1.toNat, (fwd w a b u l k).2.toNat) = Pseudocode.fwd w a b u.toNat l.toNat k.toNat := by
  simp [fwd, Pseudocode.fwd, Pseudocode.addW]

/-- The words of a list as one of the pseudocode's arrays: the value at each index, 0 past the end. -/
def arrayOf {w : Nat} (words : List (BitVec w)) (i : Nat) : Nat := (words.getD i 0).toNat

theorem arrayOf_of_length_le {w i : Nat} {words : List (BitVec w)} (hi : words.length ≤ i) : arrayOf words i = 0 := by
  rw [arrayOf, List.getD_eq_default _ _ hi]
  rfl

/-- To append a word is to assign the array's first free index. -/
theorem arrayOf_append_singleton {w : Nat} (words : List (BitVec w)) (x : BitVec w) :
    arrayOf (words ++ [x]) = Function.update (arrayOf words) words.length x.toNat := by
  funext i
  rcases lt_trichotomy i words.length with hi | rfl | hi
  · rw [Function.update_of_ne hi.ne, arrayOf, arrayOf, List.getD_append _ _ _ _ hi]
  · simp [arrayOf]
  · rw [Function.update_of_ne hi.ne', arrayOf_of_length_le hi.le, arrayOf_of_length_le (by simpa using hi)]

end Sys2Proof.Machine
end

section
/-! The primary key schedule against the arrays of R65: the two agree at the start, and each iteration, which appends a word to
each sequence, assigns that word in the pseudocode's arrays. -/

namespace Sys2Proof.Machine

/-- The two sequences of the schedule as the arrays `L` and `rk` of R65. -/
def ScheduleSeqs.arrays {w : Nat} (q : ScheduleSeqs w) : (Nat → Nat) × (Nat → Nat) := (arrayOf q.aux, arrayOf q.keys)

/-- Iteration `i` of R65's pseudocode, for a key of `m` words: the body of the loop of `Pseudocode.keySchedule`. -/
def arraysStep (w m a b : Nat) (q : (Nat → Nat) × (Nat → Nat)) (i : Nat) : (Nat → Nat) × (Nat → Nat) :=
  let p := Pseudocode.fwd w a b (q.1 i) (q.2 i) i
  (Function.update q.1 (i + m - 1) p.1, Function.update q.2 (i + 1) p.2)

/-- The arrays `L` and `rk` of R65 before the first iteration. -/
def seedArrays (w ks key : Nat) : (Nat → Nat) × (Nat → Nat) :=
  (fun j => if j + 1 < ks / w then Pseudocode.keyWord w ks key (j + 1) else 0,
    fun i => if i = 0 then Pseudocode.keyWord w ks key 0 else 0)

theorem pseudocode_keySchedule_eq (w ks rounds a b key : Nat) :
    Pseudocode.keySchedule w ks rounds a b key =
      ((List.range (rounds - 1)).foldl (arraysStep w (ks / w) a b) (seedArrays w ks key)).2 := rfl

variable {w m : Nat} (a b : Nat)

/-- One iteration: the index, as a round key, is below 2^w (R68), and each sequence is free at the index assigned. -/
theorem arrays_scheduleStep {q : ScheduleSeqs w} {i : Nat} (hi : i < 2 ^ w) (haux : q.aux.length = i + m - 1)
    (hkeys : q.keys.length = i + 1) : (scheduleStep w a b q i).arrays = arraysStep w m a b q.arrays i := by
  have hindex : (BitVec.ofNat w i).toNat = i := (BitVec.toNat_ofNat i w).trans (Nat.mod_eq_of_lt hi)
  have hround := toNat_fwd a b (q.aux.getD i 0) (q.keys.getD i 0) (BitVec.ofNat w i)
  rw [hindex] at hround
  simp only [arraysStep, ScheduleSeqs.arrays,
    show Pseudocode.fwd w a b (arrayOf q.aux i) (arrayOf q.keys i) i = _ from hround.symm,
    scheduleStep, arrayOf_append_singleton, haux, hkeys]

/-- Each iteration of the schedule appends one word to L (R68). -/
theorem length_aux_foldl_scheduleStep (q : ScheduleSeqs w) (is : List Nat) :
    (is.foldl (scheduleStep w a b) q).aux.length = q.aux.length + is.length := by
  induction is generalizing q with
  | nil => rfl
  | cons i is ih => simp [ih, scheduleStep]; omega

/-- The whole loop, by induction on the number of its iterations. -/
theorem arrays_foldl_scheduleStep {q : ScheduleSeqs w} {n : Nat} (hn : n ≤ 2 ^ w) (hm : 1 ≤ m)
    (haux : q.aux.length = m - 1) (hkeys : q.keys.length = 1) :
    ((List.range n).foldl (scheduleStep w a b) q).arrays = (List.range n).foldl (arraysStep w m a b) q.arrays := by
  induction n with
  | zero => rfl
  | succ n ih =>
    have hauxLength := length_aux_foldl_scheduleStep a b q (List.range n)
    have hkeysLength := length_keys_foldl_scheduleStep a b q (List.range n)
    rw [List.length_range] at hauxLength hkeysLength
    rw [List.range_succ, List.foldl_append, List.foldl_append, ← ih (by omega)]
    exact arrays_scheduleStep a b hn (by omega) (by omega)

/-- A word of the truncated key, as a number (R66, R67). -/
theorem arrayOf_keyWords (w ks : Nat) (key : KeyReg) (j : Nat) :
    arrayOf (keyWords w ks key) j = if j < ks / w then Pseudocode.keyWord w ks key.toNat j else 0 := by
  split
  case isTrue hj => simp [arrayOf, keyWords, hj, Pseudocode.keyWord, and_mask]
  case isFalse hj => exact arrayOf_of_length_le (by simpa [keyWords] using hj)

/-- Word 0 seeds the round keys and the others L (R67). -/
theorem arrays_seed {ks : Nat} (key : KeyReg) (hm : 1 ≤ ks / w) :
    ScheduleSeqs.arrays ⟨(keyWords w ks key).tail, (keyWords w ks key).take 1⟩ = seedArrays w ks key.toNat := by
  refine Prod.ext (funext fun j => ?_) (funext fun i => ?_)
  · calc arrayOf (keyWords w ks key).tail j
      _ = arrayOf (keyWords w ks key) (j + 1) := by simp [arrayOf]
      _ = _ := arrayOf_keyWords ..
  · cases i with
    | zero =>
      calc arrayOf ((keyWords w ks key).take 1) 0
        _ = arrayOf (keyWords w ks key) 0 := by simp [arrayOf]
        _ = _ := (arrayOf_keyWords ..).trans (if_pos hm)
    | succ i => exact arrayOf_of_length_le (by simp)

/-- The schedule's words are the array `rk` of R65's pseudocode, when there is a key word and every index is a word (R68). -/
theorem arrayOf_keySchedule {c : CipherConfig} (key : KeyReg) (hm : 1 ≤ c.m) (hrounds : c.rounds ≤ 2 ^ c.w) :
    arrayOf (keySchedule c key) = Pseudocode.keySchedule c.w c.ks c.rounds c.alpha c.beta key.toNat := by
  have hloop := arrays_foldl_scheduleStep c.alpha c.beta (n := c.rounds - 1) (by omega) hm
    (q := ⟨(keyWords c.w c.ks key).tail, (keyWords c.w c.ks key).take 1⟩) (by simp [keyWords, CipherConfig.m])
    (by simpa [keyWords, CipherConfig.m] using hm)
  rw [arrays_seed key hm] at hloop
  rw [pseudocode_keySchedule_eq]
  exact congrArg Prod.snd hloop

/-- No row of R57's table has more rounds than the round-key file has entries, nor an index that is not a word (R64, R68). -/
theorem rounds_configTable_row {r : TableRow} (hr : r ∈ configTable) :
    (configOf r).rounds ≤ 34 ∧ 34 ≤ 2 ^ (configOf r).w := by
  revert r; decide

theorem arrayOf_keySchedule_of_mem {r : TableRow} (hr : r ∈ configTable) (key : KeyReg) :
    arrayOf (keySchedule (configOf r) key) = Pseudocode.keySchedule (configOf r).w (configOf r).ks (configOf r).rounds
      (configOf r).alpha (configOf r).beta key.toNat := by
  obtain ⟨-, -, -, -, -, hm⟩ := configTable_row hr
  obtain ⟨hrounds, hword⟩ := rounds_configTable_row hr
  exact arrayOf_keySchedule key hm (hrounds.trans hword)

/-- Settles O17: the sequences and the arrays of the pseudocode agree all along the loop. -/
theorem keyScheduleFollowsThePseudocode : Obligations.KeyScheduleFollowsThePseudocode := by
  intro bs ks c key h
  obtain ⟨r, hr, rfl⟩ := resolve_ok h
  obtain ⟨-, -, -, -, hrounds, hm⟩ := configTable_row hr
  exact ⟨length_keySchedule key hrounds hm, fun i _ => congrFun (arrayOf_keySchedule_of_mem hr key) i⟩

end Sys2Proof.Machine
end

section
/-! The completion of KEYLOAD (R70): what it latches, for a row of R57's table, and what of the key it reads (R73). -/

namespace Sys2Proof.Machine

open Sys2Proof.Safety Sys2Proof.Terms

theorem resolve_ok_sizes {bs ks : Nat} {c : CipherConfig} (h : resolve bs ks = .ok c) : c.bs = bs ∧ c.ks = ks := by
  simp only [resolve] at h
  split at h
  case isFalse => cases h
  case isTrue =>
    split at h
    case h_1 r hr => cases h; simpa [configOf] using List.find?_some hr
    case h_2 => cases h

/-- What KEYLOAD latches when it completes: the resolved configuration, and the file of its schedule (R70). -/
theorem exec_keyload_completed {s t : State} (hp : s.pending = some .keyload) (h : exec .keyload s = .next t) :
    ∃ c, resolveConfig s = .ok c ∧ t.acfg = latchedConfig c ∧ t.rk = keyFile 34 (keySchedule c s.key) := by
  obtain ⟨u, hu, rfl⟩ := exec_completed hp h
  simp only [completionEffect, effectKeyload] at hu
  split at hu
  case h_1 c hc => cases hu; exact ⟨c, hc, rfl, rfl⟩
  case h_2 => cases hu

/-- The schedule reads the key's low `ks` bits alone (R66, R73). -/
theorem keySchedule_congr {c : CipherConfig} {key key' : KeyReg} (h : key.toNat % 2 ^ c.ks = key'.toNat % 2 ^ c.ks) :
    keySchedule c key = keySchedule c key' := by
  have htrunc : key.setWidth c.ks = key'.setWidth c.ks := by
    rwa [BitVec.toNat_eq, BitVec.toNat_setWidth, BitVec.toNat_setWidth]
  simp only [keySchedule, keyWords, htrunc]

/-- Settles O19: the two resolve the same configuration, and its schedule reads what the two keys have in common. -/
theorem keyloadReadsOnlyConfigAndTheTruncatedKey : Obligations.KeyloadReadsOnlyConfigAndTheTruncatedKey := by
  intro s s' t t' hp hp' hconfig hkey h h'
  obtain ⟨c, hc, hacfg, hrk⟩ := exec_keyload_completed hp h
  obtain ⟨c', hc', hacfg', hrk'⟩ := exec_keyload_completed hp' h'
  obtain ⟨-, hks⟩ := resolve_ok_sizes hc
  have hsame : resolveConfig s = resolveConfig s' := by simp only [resolveConfig, blockSizeArg, keySizeArg, hconfig]
  obtain rfl : c = c' := Except.ok.inj (hc.symm.trans (hsame.trans hc'))
  have hschedule : keySchedule c s.key = keySchedule c s'.key := keySchedule_congr (by rwa [hks])
  exact ⟨hacfg.trans hacfg'.symm, by rw [hrk, hrk', hschedule]⟩

/-- The fields of `acfg` hold the members of a row's configuration (R31, R60). -/
theorem toNat_latchedConfig {r : TableRow} (hr : r ∈ configTable) :
    let a := latchedConfig (configOf r)
    a.bs.toNat = r.bs ∧ a.ks.toNat = r.ks ∧ a.rounds.toNat = r.rounds ∧ a.w.toNat = r.bs / 2 ∧
      a.alpha.toNat = (if r.bs = 32 then 7 else 8) ∧ a.beta.toNat = (if r.bs = 32 then 2 else 3) := by
  revert r; decide

/-- The file KEYLOAD writes: the round keys of the pseudocode, and 0 above them (R32, R70). -/
theorem entry_keyFile_keySchedule {r : TableRow} {i : Nat} (hr : r ∈ configTable) (key : KeyReg) (hi : i < 34) :
    entry (keyFile 34 (keySchedule (configOf r) key)) i =
      if i < r.rounds then Pseudocode.keySchedule (configOf r).w (configOf r).ks (configOf r).rounds (configOf r).alpha
        (configOf r).beta key.toNat i
      else 0 := by
  obtain ⟨-, -, -, hw, hrounds, hm⟩ := configTable_row hr
  calc entry (keyFile 34 (keySchedule (configOf r) key)) i
    _ = arrayOf (keySchedule (configOf r) key) i := entry_keyFile _ hw hi
    _ = _ := ?_
  split
  case isTrue => rw [arrayOf_keySchedule_of_mem hr]
  case isFalse habove =>
    exact arrayOf_of_length_le ((length_keySchedule key hrounds hm).trans_le (not_lt.1 habove))

theorem exec_keyload_completes {s : State} {c : CipherConfig} (hp : s.pending = some .keyload)
    (hc : resolveConfig s = .ok c) : exec .keyload s =
      .next (finish { s with acfg := latchedConfig c, rk := keyFile 34 (keySchedule c s.key), keyed := true }) :=
  runCommand_completes hp (by simp only [effectKeyload, hc])

/-- Settles O20: CONFIG resolves to the row's configuration, whose fields and schedule the completion latches. -/
theorem keyloadCompletes : Obligations.KeyloadCompletes := by
  rintro s bs ks rounds hp hrow hbs hks
  have hr := mem_pseudocodeTable.1 hrow
  have hc : resolveConfig s = .ok (configOf ⟨bs, ks, rounds⟩) := by
    rw [resolveConfig, blockSizeArg, keySizeArg, hbs, hks]
    exact resolve_of_mem hr
  obtain ⟨hacfgBs, hacfgKs, hacfgRounds, hacfgW, hacfgAlpha, hacfgBeta⟩ := toNat_latchedConfig hr
  exact ⟨0, _, _, exec_keyload_completes hp hc, hacfgBs, hacfgKs, hacfgRounds, hacfgW, hacfgAlpha, hacfgBeta,
    fun _ => entry_keyFile_keySchedule hr s.key⟩

end Sys2Proof.Machine
end

section
/-! The round function: both rounds on the values of their words (R74, R76), and each undoing the other (R77). -/

namespace Sys2Proof.Machine

/-- Before the residue modulo `2^w`, `BitVec`'s difference and `sub_w` of R14 are the same integer: the word subtracted is
below `2^w`, so subtracting it from `2^w` first does not cut off at 0. -/
@[simp] theorem toNat_sub_eq_subW {w : Nat} (x y : BitVec w) :
    (x - y).toNat = Pseudocode.subW w x.toNat y.toNat := by
  have hcast : ((2 ^ w - y.toNat + x.toNat : Nat) : Int) = (x.toNat : Int) - y.toNat + 2 ^ w := by
    push_cast [y.isLt.le]
    ring
  rw [BitVec.toNat_sub, Pseudocode.subW, ← hcast]
  norm_cast

theorem toNat_inv {w : Nat} (a b : Nat) (u l k : BitVec w) :
    ((inv w a b u l k).1.toNat, (inv w a b u l k).2.toNat) = Pseudocode.inv w a b u.toNat l.toNat k.toNat := by
  simp only [inv, Pseudocode.inv, toNat_rotl, toNat_rotr, toNat_sub_eq_subW, BitVec.toNat_xor]

/-- The forward round gives back what the inverse round took (R77). -/
theorem fwd_inv {w : Nat} (a b : Nat) (u l k : BitVec w) :
    fwd w a b (inv w a b u l k).1 (inv w a b u l k).2 k = (u, l) := by
  have hupper : u ^^^ k ^^^ k = u := by rw [BitVec.xor_assoc, BitVec.xor_self, BitVec.xor_zero]
  have hlower : u ^^^ l ^^^ u = l := by
    rw [BitVec.xor_comm u, BitVec.xor_assoc, BitVec.xor_self, BitVec.xor_zero]
  simp only [fwd, inv, rotr_rotl, BitVec.sub_add_cancel, hupper, rotl_rotr, hlower]

/-- Settles O13: the forward round's values are those of the pseudocode. -/
theorem forwardRoundFollowsThePseudocode : Obligations.ForwardRoundFollowsThePseudocode :=
  fun _ a b u l k _ => toNat_fwd a b u l k

/-- Settles O14: the inverse round's values are those of the pseudocode, with the difference of R14 on the integers. -/
theorem inverseRoundFollowsThePseudocode : Obligations.InverseRoundFollowsThePseudocode :=
  fun _ a b u l k _ => toNat_inv a b u l k

/-- Settles O15: each round is undone by the other, step by step in the reverse order. -/
theorem roundsUndoEachOther : Obligations.RoundsUndoEachOther :=
  fun _ a b u l k _ => ⟨inv_fwd a b u l k, fwd_inv a b u l k⟩

end Sys2Proof.Machine
end

section
/-! The block codec on the values of its words: `Split` and `Join` (R81), and the folds of both rounds over the entries of a
round-key file (R83, R84). -/

namespace Sys2Proof.Machine

open Sys2Proof.Terms

/-- A pair of words as the pseudocode's pair of numbers. -/
def wordValues {w : Nat} (p : BitVec w × BitVec w) : Nat × Nat := (p.1.toNat, p.2.toNat)

theorem wordValues_split (w : Nat) (x : Block) : wordValues (split w x) = Pseudocode.split w x.toNat := by
  simp only [wordValues, split, Pseudocode.split, BitVec.extractLsb'_toNat, BitVec.toNat_setWidth, and_mask]

/-- A block register holds both words of up to 64 bits, so `Join` loses none of their bits. -/
theorem toNat_join {w : Nat} (hw : w ≤ 64) (p : BitVec w × BitVec w) :
    (join p).toNat = Pseudocode.join w (wordValues p) := by
  rw [join_eq_append, BitVec.toNat_setWidth_of_le (by omega), BitVec.toNat_append]
  rfl

/-- The round keys are the entries of the file, each cut to a word (R83). -/
theorem roundKeys_eq_map_entry {depth rounds : Nat} (w : Nat) (hrounds : rounds ≤ depth) (file : Vector StoredKey depth) :
    roundKeys w rounds file = (List.range rounds).map (fun i => BitVec.ofNat w (entry file i)) := by
  refine List.ext_getElem (by simpa [roundKeys] using hrounds) fun i hi _ => ?_
  have hdepth : i < depth := by simp [roundKeys] at hi; omega
  simp [roundKeys, entry, hdepth]

/-- A number made a word is cut to `mask(w)`, as the pseudocode cuts the round keys. -/
theorem toNat_ofNat_eq_and_mask (w n : Nat) : (BitVec.ofNat w n).toNat = n &&& Pseudocode.mask w := by
  rw [and_mask, BitVec.toNat_ofNat]

section folds
variable {w depth rounds : Nat} (a b : Nat) (file : Vector StoredKey depth)

/-- The two folds take the same rounds in the same order, and each round has the pseudocode's values. -/
theorem wordValues_encryptWords (hrounds : rounds ≤ depth) (p : BitVec w × BitVec w) :
    wordValues (encryptWords w a b (roundKeys w rounds file) p) = (List.range rounds).foldl
      (fun q i => Pseudocode.fwd w a b q.1 q.2 (entry file i &&& Pseudocode.mask w)) (wordValues p) := by
  rw [encryptWords, roundKeys_eq_map_entry w hrounds, List.foldl_map]
  refine (List.foldl_hom wordValues fun q i => ?_).symm
  rw [← toNat_ofNat_eq_and_mask]
  exact (toNat_fwd ..).symm

/-- The keys in reverse are the pseudocode's indices downwards. -/
theorem wordValues_decryptWords (hrounds : rounds ≤ depth) (p : BitVec w × BitVec w) :
    wordValues (decryptWords w a b (roundKeys w rounds file) p) = (List.range rounds).reverse.foldl
      (fun q i => Pseudocode.inv w a b q.1 q.2 (entry file i &&& Pseudocode.mask w)) (wordValues p) := by
  rw [decryptWords, roundKeys_eq_map_entry w hrounds, ← List.map_reverse, List.foldl_map]
  refine (List.foldl_hom wordValues fun q i => ?_).symm
  rw [← toNat_ofNat_eq_and_mask]
  exact (toNat_inv ..).symm

/-- The model's encryption is `EncryptBlock` of R83, for a word width and a number of rounds that the datapath holds. -/
theorem toNat_encryptBlock (hw : w ≤ 64) (hrounds : rounds ≤ depth) (x : Block) :
    (encryptBlock w a b (roundKeys w rounds file) x).toNat =
      Pseudocode.encryptBlock w a b rounds (entry file) x.toNat := by
  rw [encryptBlock, toNat_join hw, wordValues_encryptWords a b file hrounds, wordValues_split]
  rfl

/-- The model's decryption is `DecryptBlock` of R84, for a word width and a number of rounds that the datapath holds. -/
theorem toNat_decryptBlock (hw : w ≤ 64) (hrounds : rounds ≤ depth) (x : Block) :
    (decryptBlock w a b (roundKeys w rounds file) x).toNat =
      Pseudocode.decryptBlock w a b rounds (entry file) x.toNat := by
  rw [decryptBlock, toNat_join hw, wordValues_decryptWords a b file hrounds, wordValues_split]
  rfl

end folds

/-- Settles O28: the words of a block and their join have the values of the rule, and a block below `2^(2w)` is all
in its words. -/
theorem splitAndJoinFollowTheRule : Obligations.SplitAndJoinFollowTheRule :=
  fun w x _ hw => ⟨wordValues_split w x, fun u l => toNat_join hw (u, l),
    fun hx => (join_split hw x).trans (truncBlock_of_lt hx)⟩

end Sys2Proof.Machine
end

section
/-! Encryption undoes decryption under the same round keys, and both round trips of the primary cipher (R88). -/

namespace Sys2Proof.Machine

/-- The forward fold undoes the reverse fold over the same keys: the first key is the last one the reverse fold uses. -/
theorem encryptWords_decryptWords {w : Nat} (a b : Nat) (keys : List (BitVec w)) (p : BitVec w × BitVec w) :
    encryptWords w a b keys (decryptWords w a b keys p) = p := by
  induction keys with
  | nil => rfl
  | cons k keys ih =>
    have hlast : decryptWords w a b (k :: keys) p =
        inv w a b (decryptWords w a b keys p).1 (decryptWords w a b keys p).2 k := by
      simp [decryptWords]
    have hfirst (q : BitVec w × BitVec w) :
        encryptWords w a b (k :: keys) q = encryptWords w a b keys (fwd w a b q.1 q.2 k) := rfl
    rw [hfirst, hlast, fwd_inv, ih]

/-- Encryption undoes decryption under the same round keys, up to the truncation to the block (R82, R88). -/
theorem encryptBlock_decryptBlock {w : Nat} (hw : w ≤ 64) (a b : Nat) (keys : List (BitVec w)) (x : Block) :
    encryptBlock w a b keys (decryptBlock w a b keys x) = truncBlock (2 * w) x := by
  rw [encryptBlock, decryptBlock, split_join hw, encryptWords_decryptWords, join_split hw]

/-- A resolved block is two of its words, of at most 64 bits (R60, R64). -/
theorem resolve_ok_words {bs ks : Nat} {c : CipherConfig} (h : resolve bs ks = .ok c) : bs = 2 * c.w ∧ c.w ≤ 64 := by
  obtain ⟨hbs, -⟩ := resolve_ok_sizes h
  obtain ⟨r, hr, rfl⟩ := resolve_ok h
  obtain ⟨hacfgBs, -⟩ := toNat_latchedConfig hr
  obtain ⟨-, -, hblock, hw, -⟩ := configTable_row hr
  exact ⟨(hacfgBs.trans hbs).symm.trans hblock, hw⟩

/-- Settles O29: the two folds undo each other whatever the round keys are, and the block is already truncated. -/
theorem primaryCipherRoundTrips : Obligations.PrimaryCipherRoundTrips := by
  intro bs ks c key x h hx
  obtain ⟨rfl, hw⟩ := resolve_ok_words h
  rw [decryptBlock_encryptBlock hw, encryptBlock_decryptBlock hw, truncBlock_of_lt hx]
  exact ⟨rfl, rfl⟩

end Sys2Proof.Machine
end

section
/-! The completions of ENCRYPT and DECRYPT (R85, R86): what they put into DOUT, and what of the state it depends on (R90). -/

namespace Sys2Proof.Safety

open Sys2Proof.Machine Sys2Proof.Terms

variable {s : State}

/-- The round keys of a keyed primary engine are all in its round-key file (R32, R64). -/
theorem acfg_rounds_of_keyed (hs : Coherent s) (hk : s.keyed = true) : s.acfg.rounds.toNat ≤ 34 := by
  obtain ⟨-, hlatched⟩ := hs.primary
  obtain ⟨r, hr, -, hacfg, -⟩ := hlatched hk
  obtain ⟨-, hlatchedRounds, -⟩ := configTable_row hr
  obtain ⟨hrounds, -⟩ := rounds_configTable_row hr
  rwa [hacfg, hlatchedRounds]

/-- Settles O21: in a coherent state the words and the rounds fit, so the codec is the rule's, and joins a block. -/
theorem encryptCompletes : Obligations.EncryptCompletes := by
  intro s hs hp
  have hk := keyed_of_pending hs hp (.inl rfl)
  obtain ⟨hbs, hw⟩ := acfg_of_keyed hs hk
  refine ⟨0, _, exec_encrypt_completes hp, ?_, (encryptBlock_lt ..).trans_eq (congrArg _ hbs.symm)⟩
  rw [← toNat_truncBlock]
  exact toNat_encryptBlock _ _ s.rk hw (acfg_rounds_of_keyed hs hk) _

/-- Settles O22: in a coherent state the words and the rounds fit, so the codec is the rule's. -/
theorem decryptCompletes : Obligations.DecryptCompletes := by
  intro s hs hp
  have hk := keyed_of_pending hs hp (.inr rfl)
  obtain ⟨-, hw⟩ := acfg_of_keyed hs hk
  refine ⟨0, _, exec_decrypt_completes hp, ?_⟩
  rw [← toNat_truncBlock]
  exact toNat_decryptBlock _ _ s.rk hw (acfg_rounds_of_keyed hs hk) _

/-- Settles O32: DOUT is the codec's result on `acfg`, on the round keys in `rk`, and on the truncated DIN. -/
theorem dataCommandsReadOnlyTheInstance : Obligations.DataCommandsReadOnlyTheInstance := by
  intro c s s' hc hp hp' hacfg hrk hdin
  have hblock : truncBlock s.acfg.bs.toNat s.din = truncBlock s.acfg.bs.toNat s'.din :=
    BitVec.eq_of_toNat_eq (by rwa [toNat_truncBlock, toNat_truncBlock])
  rcases hc with rfl | rfl
  · refine ⟨_, _, exec_encrypt_completes hp, exec_encrypt_completes hp', ?_⟩
    simp only [finish_dout, primaryKeys]
    rw [hblock, hacfg, hrk]
  · refine ⟨_, _, exec_decrypt_completes hp, exec_decrypt_completes hp', ?_⟩
    simp only [finish_dout, primaryKeys]
    rw [hblock, hacfg, hrk]

end Sys2Proof.Safety
end

section
/-! The V1 key schedule against the arrays of R96: the two agree at the start (R95), and each round, which replaces one word and
gives out the one it consumed, makes those two assignments in the pseudocode's arrays. -/

namespace Sys2Proof.Machine

/-- To replace a word of the list is to assign the array at its index. -/
theorem arrayOf_set {w j : Nat} {words : List (BitVec w)} (hj : j < words.length) (x : BitVec w) :
    arrayOf (words.set j x) = Function.update (arrayOf words) j x.toNat := by
  funext i
  by_cases hij : i = j
  · subst hij
    simp [arrayOf, hj]
  · rw [Function.update_of_ne hij]
    simp [arrayOf, List.getElem?_set_ne (Ne.symm hij)]

/-- The two sequences of the V1 schedule as the arrays `W` and `out` of R96. -/
def V1ScheduleSeqs.arrays {bits : Nat} (q : V1ScheduleSeqs bits) : (Nat → Nat) × (Nat → Nat) :=
  (arrayOf q.words, arrayOf q.out)

/-- Round `i` of R96's pseudocode: the body of the loop of `Pseudocode.v1Schedule`. -/
def v1ArraysStep (bits n rr rl : Nat) (q : (Nat → Nat) × (Nat → Nat)) (i : Nat) : (Nat → Nat) × (Nat → Nat) :=
  let j := i % n
  let p := Pseudocode.fwd bits rr rl (q.1 j) (q.1 ((j + 1) % n)) (i % 2 ^ bits)
  (Function.update q.1 j p.1, Function.update q.2 i (q.1 j))

/-- The arrays `W` and `out` of R96 before the first round. -/
def v1SeedArrays (bits n key : Nat) : (Nat → Nat) × (Nat → Nat) :=
  (fun j => if j < n then Pseudocode.v1KeyWord bits key j else 0, fun _ => 0)

theorem pseudocode_v1Schedule_eq (bits n rounds rr rl key : Nat) :
    Pseudocode.v1Schedule bits n rounds rr rl key =
      ((List.range rounds).foldl (v1ArraysStep bits n rr rl) (v1SeedArrays bits n key)).2 := rfl

variable {bits n : Nat} (rr rl : Nat)

/-- One round: the word replaced is one of the `n`, and `out` is free at the index of the round. -/
theorem arrays_v1ScheduleStep {q : V1ScheduleSeqs bits} {i : Nat} (hn : 1 ≤ n) (hwords : q.words.length = n)
    (hout : q.out.length = i) : (v1ScheduleStep bits n rr rl q i).arrays = v1ArraysStep bits n rr rl q.arrays i := by
  have hj : i % n < q.words.length := (Nat.mod_lt i hn).trans_eq hwords.symm
  have hround := toNat_fwd rr rl (q.words.getD (i % n) 0) (q.words.getD ((i % n + 1) % n) 0) (BitVec.ofNat bits i)
  rw [BitVec.toNat_ofNat] at hround
  simp only [V1ScheduleSeqs.arrays, v1ScheduleStep, arrayOf_set hj, arrayOf_append_singleton, hout, v1ArraysStep, arrayOf,
    ← hround]

/-- Each round replaces a key word and gives one out. -/
theorem lengths_foldl_v1ScheduleStep (q : V1ScheduleSeqs bits) (is : List Nat) :
    (is.foldl (v1ScheduleStep bits n rr rl) q).words.length = q.words.length ∧
    (is.foldl (v1ScheduleStep bits n rr rl) q).out.length = q.out.length + is.length := by
  induction is generalizing q with
  | nil => exact ⟨rfl, rfl⟩
  | cons i is ih =>
    obtain ⟨hwords, hout⟩ := ih (v1ScheduleStep bits n rr rl q i)
    refine ⟨hwords.trans (by simp [v1ScheduleStep]), hout.trans ?_⟩
    simp [v1ScheduleStep]
    omega

/-- The whole loop, by induction on the number of its rounds. -/
theorem arrays_foldl_v1ScheduleStep {q : V1ScheduleSeqs bits} (hn : 1 ≤ n) (hwords : q.words.length = n)
    (hout : q.out.length = 0) (rounds : Nat) :
    ((List.range rounds).foldl (v1ScheduleStep bits n rr rl) q).arrays =
      (List.range rounds).foldl (v1ArraysStep bits n rr rl) q.arrays := by
  induction rounds with
  | zero => rfl
  | succ i ih =>
    obtain ⟨hwordsLength, houtLength⟩ := lengths_foldl_v1ScheduleStep (n := n) rr rl q (List.range i)
    rw [List.length_range, hout, Nat.zero_add] at houtLength
    simp only [List.range_succ, List.foldl_append, ← ih, List.foldl_cons, List.foldl_nil]
    exact arrays_v1ScheduleStep rr rl hn (hwordsLength.trans hwords) houtLength

/-- A V1 key word as a number: it lies in its 64-bit lane, so cutting the lane first loses none of its bits (R95). -/
theorem arrayOf_v1KeyWords (hbits : bits ≤ 64) (n : Nat) (key : KeyReg) (j : Nat) :
    arrayOf (v1KeyWords bits n key) j = if j < n then Pseudocode.v1KeyWord bits key.toNat j else 0 := by
  split
  case isTrue hj =>
    have hlane (x : Nat) : x % 2 ^ 64 % 2 ^ bits = x % 2 ^ bits :=
      Nat.mod_mod_of_dvd x (Nat.pow_dvd_pow 2 hbits)
    calc arrayOf (v1KeyWords bits n key) j
      _ = (key.toNat >>> (64 * j)) % 2 ^ 64 % 2 ^ bits := by simp [arrayOf, v1KeyWords, hj]
      _ = _ := hlane _
  case isFalse hj => exact arrayOf_of_length_le (by simpa [v1KeyWords] using hj)

theorem arrays_v1Seed (hbits : bits ≤ 64) (n : Nat) (key : KeyReg) :
    V1ScheduleSeqs.arrays ⟨v1KeyWords bits n key, []⟩ = v1SeedArrays bits n key.toNat :=
  Prod.ext (funext (arrayOf_v1KeyWords hbits n key)) (funext fun _ => arrayOf_of_length_le (Nat.zero_le _))

/-- The V1 schedule's words are the array `out` of R96's pseudocode. -/
theorem arrayOf_v1Schedule (hbits : bits ≤ 64) (hn : 1 ≤ n) (rounds : Nat) (key : KeyReg) :
    arrayOf (v1Schedule bits n rounds rr rl (v1KeyWords bits n key)) =
      Pseudocode.v1Schedule bits n rounds rr rl key.toNat := by
  have hloop := arrays_foldl_v1ScheduleStep rr rl hn (q := ⟨v1KeyWords bits n key, []⟩) (by simp [v1KeyWords]) rfl rounds
  rw [arrays_v1Seed hbits] at hloop
  rw [pseudocode_v1Schedule_eq]
  exact congrArg Prod.snd hloop

/-- The V1 schedule has one word a round (R96). -/
theorem length_v1Schedule (n rounds : Nat) (words : List (BitVec bits)) :
    (v1Schedule bits n rounds rr rl words).length = rounds := by
  obtain ⟨-, hout⟩ := lengths_foldl_v1ScheduleStep (n := n) rr rl ⟨words, []⟩ (List.range rounds)
  rw [v1Schedule, hout, List.length_range]
  exact Nat.zero_add rounds

/-- Settles O18: the sequences and the arrays of the pseudocode agree all along the loop. -/
theorem v1ScheduleFollowsThePseudocode : Obligations.V1ScheduleFollowsThePseudocode :=
  fun _ n rounds rr rl key _ hbits hn _ => ⟨length_v1Schedule rr rl n rounds _,
    fun i _ => congrFun (arrayOf_v1Schedule rr rl hbits hn rounds key) i⟩

end Sys2Proof.Machine
end

section
/-! V1_KEYLOAD: the rotation counts it takes (R99), and what it latches when it completes (R97). -/

namespace Sys2Proof.Machine

open Sys2Proof.Safety Sys2Proof.Terms

/-- R94's check passes exactly for the ranges of R92. -/
theorem acceptCheck_v1Keyload_eq_zero {s : State} :
    Pseudocode.acceptCheck .v1Keyload s = 0 ↔ v1ParamsLegal s = true := by
  rw [← codeOf_acceptCheck, acceptCheck, checkV1Keyload]
  cases v1ParamsLegal s <;> decide

theorem exec_v1Keyload_completes {s : State} (hp : s.pending = some .v1Keyload) (hlegal : v1ParamsLegal s = true) :
    exec .v1Keyload s =
      .next (finish { s with v1Acfg := v1Latched s, v1Rk := v1KeyFile (v1Latched s) s.key, v1Keyed := true }) :=
  runCommand_completes hp (if_pos hlegal)

/-- A V1_KEYLOAD in flight that answers a next state has latched the parameters as they were written (R97). -/
theorem exec_v1Keyload_latches {s t : State} (hp : s.pending = some .v1Keyload) (h : exec .v1Keyload s = .next t) :
    t.v1Acfg = v1Latched s := by
  obtain ⟨u, hu, rfl⟩ := exec_completed hp h
  simp only [completionEffect, effectV1Keyload] at hu
  split at hu
  case isTrue => cases hu; rfl
  case isFalse => cases hu

theorem rotr_mod (w : Nat) (x : BitVec w) (r : Nat) : rotr w x (r % w) = rotr w x r := by
  simp only [rotr, Nat.mod_mod]

theorem rotl_mod (w : Nat) (x : BitVec w) (r : Nat) : rotl w x (r % w) = rotl w x r := by
  simp only [rotl, Nat.mod_mod]

/-- Settles O16: both rotations reduce their amount themselves, so V1_KEYLOAD latches the counts as they are, and its check
does not read V1_CFG1. -/
theorem v1RotationCountsActModuloTheWidth : Obligations.V1RotationCountsActModuloTheWidth := by
  refine ⟨fun bits x r _ => ⟨(rotr_mod bits x r).symm, (rotl_mod bits x r).symm, fun hr => ?_⟩,
    fun s t hp h => ?_, fun s c hp hcheck => ?_⟩
  · exact ⟨rotr_of_mod_eq_zero x hr, rotl_of_mod_eq_zero x hr⟩
  · rw [exec_v1Keyload_latches hp h]
    exact ⟨rfl, rfl⟩
  · obtain ⟨haccept, -⟩ := acceptFollowsTheChecks .v1Keyload { s with v1cfg1 := c } hp
    obtain ⟨_, _, hnext⟩ := haccept hcheck
    exact ⟨_, hnext, rfl, rfl⟩

/-- The file V1_KEYLOAD writes: the round keys of the pseudocode, and 0 above them (R33, R97). -/
theorem entry_v1KeyFile {c : V1ActiveConfig} {i : Nat} (hlegal : v1AcfgLegal c = true) (key : KeyReg) (hi : i < 64) :
    entry (v1KeyFile c key) i =
      if i < c.rounds.toNat then Pseudocode.v1Schedule c.wordBits.toNat c.nkeys.toNat c.rounds.toNat c.rotR.toNat
        c.rotL.toNat key.toNat i
      else 0 := by
  obtain ⟨-, hbits, hn, -⟩ := v1Legal_iff.1 hlegal
  calc entry (v1KeyFile c key) i
    _ = arrayOf (v1Schedule _ _ _ _ _ (v1KeyWords _ _ key)) i := entry_keyFile _ hbits hi
    _ = _ := ?_
  split
  case isTrue => rw [arrayOf_v1Schedule _ _ hbits hn]
  case isFalse habove => exact arrayOf_of_length_le ((length_v1Schedule ..).trans_le (not_lt.1 habove))

/-- Settles O24: the check has passed, so the completion latches the parameters as written and the file of their schedule. -/
theorem v1KeyloadCompletes : Obligations.V1KeyloadCompletes := by
  intro s hp hcheck
  have hlegal := acceptCheck_v1Keyload_eq_zero.1 hcheck
  exact ⟨0, _, exec_v1Keyload_completes hp hlegal, fun _ => entry_v1KeyFile (c := v1Latched s) hlegal s.key⟩

end Sys2Proof.Machine
end

section
/-! The V1 cipher: both its round trips (R104), and the completions of V1_ENCRYPT and V1_DECRYPT (R101, R102) in coherent
states. -/

namespace Sys2Proof.Machine

/-- Settles O30: the two folds undo each other whatever the round keys are, and the block is already truncated. -/
theorem v1CipherRoundTrips : Obligations.V1CipherRoundTrips := by
  intro bits n rounds rr rl key x _ hbits _ _ _ _ _ _ hx
  rw [decryptBlock_encryptBlock hbits, encryptBlock_decryptBlock hbits, truncBlock_of_lt hx]
  exact ⟨rfl, rfl⟩

variable {s : State}

theorem exec_v1Encrypt_completes (hp : s.pending = some .v1Encrypt) :
    exec .v1Encrypt s = .next (finish { s with
      dout := encryptBlock s.v1Acfg.wordBits.toNat s.v1Acfg.rotR.toNat s.v1Acfg.rotL.toNat (v1Keys s)
        (truncBlock (2 * s.v1Acfg.wordBits.toNat) s.din) }) :=
  runCommand_completes hp rfl

theorem exec_v1Decrypt_completes (hp : s.pending = some .v1Decrypt) :
    exec .v1Decrypt s = .next (finish { s with
      dout := decryptBlock s.v1Acfg.wordBits.toNat s.v1Acfg.rotR.toNat s.v1Acfg.rotL.toNat (v1Keys s)
        (truncBlock (2 * s.v1Acfg.wordBits.toNat) s.din) }) :=
  runCommand_completes hp rfl

end Sys2Proof.Machine

namespace Sys2Proof.Safety

open Sys2Proof.Machine Sys2Proof.Terms

variable {c : Instr} {s : State}

/-- V1_ENCRYPT or V1_DECRYPT in flight has passed its check: the V1 module is keyed (R103). -/
theorem v1Keyed_of_pending (hs : Coherent s) (hp : s.pending = some c) (hc : c = .v1Encrypt ∨ c = .v1Decrypt) :
    s.v1Keyed = true := by
  obtain ⟨-, -, hcheck⟩ := hs.sequencer c hp
  rcases hc with rfl | rfl <;> simpa [acceptCheck, checkV1Keyed] using hcheck

/-- The words of a keyed V1 module fit the datapath, and its round keys are all in the round-key file (R92). -/
theorem v1Acfg_of_keyed (hs : Coherent s) (hk : s.v1Keyed = true) :
    s.v1Acfg.wordBits.toNat ≤ 64 ∧ s.v1Acfg.rounds.toNat ≤ 64 := by
  obtain ⟨-, hlatched⟩ := hs.v1
  obtain ⟨hlegal, -⟩ := hlatched hk
  obtain ⟨-, hbits, -, -, -, hrounds⟩ := v1Legal_iff.1 hlegal
  exact ⟨hbits, hrounds⟩

/-- Settles O25: in a coherent state the words and the rounds fit, so the codec is the rule's. -/
theorem v1EncryptCompletes : Obligations.V1EncryptCompletes := by
  intro s hs hp
  obtain ⟨hbits, hrounds⟩ := v1Acfg_of_keyed hs (v1Keyed_of_pending hs hp (.inl rfl))
  refine ⟨0, _, exec_v1Encrypt_completes hp, ?_⟩
  rw [← toNat_truncBlock]
  exact toNat_encryptBlock _ _ s.v1Rk hbits hrounds _

/-- Settles O26: in a coherent state the words and the rounds fit, so the codec is the rule's. -/
theorem v1DecryptCompletes : Obligations.V1DecryptCompletes := by
  intro s hs hp
  obtain ⟨hbits, hrounds⟩ := v1Acfg_of_keyed hs (v1Keyed_of_pending hs hp (.inr rfl))
  refine ⟨0, _, exec_v1Decrypt_completes hp, ?_⟩
  rw [← toNat_truncBlock]
  exact toNat_decryptBlock _ _ s.v1Rk hbits hrounds _

end Sys2Proof.Safety
end

section
/-! CLEAR and V1_CLEAR: what each completion zeroizes (R105, R106), and that the data commands of the cleared instance then
raise (R87, R103). -/

namespace Sys2Proof.Machine

open Sys2Proof.Safety

/-- With no command in flight, a command whose check fails with `e` raises it (R47, R113). -/
theorem exec_raises {c : Instr} {e : ErrorCode} {s : State} (hp : s.pending = none) (hcheck : acceptCheck c s = some e) :
    exec c s = .next { s with done := false, err := true, errcode := some e } := by
  rw [exec_idle c hp, hcheck]
  rfl

theorem checkKeyed_eq_some {s : State} (hk : s.keyed = false) : checkKeyed s = some .notKeyed := by
  rw [checkKeyed, hk]
  rfl

theorem checkV1Keyed_eq_some {s : State} (hk : s.v1Keyed = false) : checkV1Keyed s = some .v1NotKeyed := by
  rw [checkV1Keyed, hk]
  rfl

theorem exec_clear_completes {s : State} (hp : s.pending = some .clear) :
    exec .clear s =
      .next (finish { zeroShared s with keyed := false, acfg := ActiveConfig.zero, rk := Vector.replicate 34 0 }) :=
  runCommand_completes hp rfl

theorem exec_v1Clear_completes {s : State} (hp : s.pending = some .v1Clear) :
    exec .v1Clear s =
      .next (finish { zeroShared s with v1Keyed := false, v1Acfg := V1ActiveConfig.zero, v1Rk := Vector.replicate 64 0 }) :=
  runCommand_completes hp rfl

/-- Settles O23: the completion leaves CORE idle and unkeyed, so the checks of ENCRYPT and DECRYPT fail. -/
theorem clearCompletes : Obligations.ClearCompletes := by
  intro s hp
  exact ⟨0, _, exec_clear_completes hp, rfl,
    exec_raises (c := .encrypt) rfl (checkKeyed_eq_some rfl), exec_raises (c := .decrypt) rfl (checkKeyed_eq_some rfl)⟩

/-- Settles O27: the completion leaves CORE idle and the V1 module unkeyed, so the checks of V1_ENCRYPT and V1_DECRYPT
fail. -/
theorem v1ClearCompletes : Obligations.V1ClearCompletes := by
  intro s hp
  exact ⟨0, _, exec_v1Clear_completes hp, rfl,
    exec_raises (c := .v1Encrypt) rfl (checkV1Keyed_eq_some rfl), exec_raises (c := .v1Decrypt) rfl (checkV1Keyed_eq_some rfl)⟩

end Sys2Proof.Machine
end

section
/-! The interrupt output (R117): what raises it, and what an accepted command leaves of it. No read and no interrupt shows the
key material (R119). -/

namespace Sys2Proof.Machine

theorem irq_iff {s : State} :
    irq s = true ↔ (s.done = true ∧ s.irqEn.doneIe = true) ∨ (s.err = true ∧ s.irqEn.errIe = true) ∨
      (s.ovr = true ∧ s.irqEn.ovrIe = true) := by
  simp only [irq, Bool.or_eq_true, Bool.and_eq_true, or_assoc]

/-- Settles O44: an accepted command clears DONE and ERR and keeps OVR and IRQ_EN, so of the three causes OVR's is left. -/
theorem irqFollowsTheStatusBits : Obligations.IrqFollowsTheStatusBits := by
  refine ⟨fun _ => irq_iff, rfl, fun c s t hp hcheck h => ?_⟩
  obtain ⟨haccept, -⟩ := acceptFollowsTheChecks c s hp
  obtain ⟨_, _, hnext⟩ := haccept hcheck
  cases hnext.symm.trans h
  simp [irq_iff]

/-- The key registers are write-only (R27), and no register shows an entry of a round-key file (R32, R33). -/
theorem readReg_keyMaterial (r : Reg) (s : State) (key : KeyReg) (rk : Vector StoredKey 34) (v1Rk : Vector StoredKey 64) :
    readReg r { s with key := key, rk := rk, v1Rk := v1Rk } = readReg r s := by
  cases r <;> rfl

/-- A read shows of the state only the registers. -/
theorem memRead_congr {s t : State} (h : ∀ r, readReg r t = readReg r s) (a : Offset) (size : AccessSize) :
    memRead a size t = memRead a size s := by
  simp only [memRead, h]

/-- Settles O41: a read answers a register's value, which the key material does not enter, and `irq` is of STATUS and IRQ_EN. -/
theorem keyMaterialCannotBeRead : Obligations.KeyMaterialCannotBeRead :=
  fun s key rk v1Rk a size => ⟨memRead_congr (readReg_keyMaterial · s key rk v1Rk) a size, rfl⟩

end Sys2Proof.Machine
end

section
/-! How a command in flight ends when no `rst` comes (R134, R51): every step before its completion keeps it in flight and
takes one from the count, so the count runs out. A run with nothing left to do stays as it is (R138). -/

namespace Sys2Proof.Machine

open Sys2Proof.Safety

variable {s t : State} {c : Instr}

/-- While busy a write to CMD is dropped (R43), so of all inputs only `rst` moves the sequencer or the count. -/
theorem inputEffect_keeps_command {x : Input} (h : InputEffect x s t) (hx : x ≠ .rst) (hp : s.pending ≠ none) :
    t.pending = s.pending ∧ t.latencyLeft = s.latencyLeft := by
  cases h with
  | accepted _ _ _ hidle => exact absurd hidle hp
  | rst => exact absurd rfl hx
  | _ => exact ⟨rfl, rfl⟩

/-- A step before the completion brings it one access nearer, and no input comes to those the host still has. -/
theorem step_before_completion (hp : s.pending = some c) (hd : completionDue s = false) (hrst : .rst ∉ s.inputs)
    (h : step s = .next t) : t.pending = some c ∧ t.latencyLeft = s.latencyLeft - 1 ∧ t.inputs ⊆ s.inputs := by
  obtain ⟨-, hturn⟩ := stepPlacesTheCompletion s c hp
  obtain ⟨x, rest, hi, hstep⟩ := hturn hd
  have heffect := performInput_effect (hstep.symm.trans h)
  have hx : x ≠ .rst := fun hx => hrst (by simp [hi, hx])
  obtain ⟨hpending, hlatency⟩ := inputEffect_keeps_command heffect hx (by simp [hp])
  refine ⟨hpending.trans hp, hlatency, ?_⟩
  rcases inputEffect_inputs heffect with ht | ht <;> simp [ht, hi]

/-- A completion that is due leaves CORE idle with DONE set (R51). -/
theorem core_run_one_of_due (hs : Coherent s) (hp : s.pending = some c) (hd : completionDue s = true) :
    ∃ t, Sys2Proof.core.run 1 s = .next t ∧ t.pending = none ∧ t.done = true := by
  obtain ⟨u, hu⟩ := completion_runs hs hp
  have hstep : step s = .next (finish u) := by
    rw [step_completes hp hd, exec_eq_runCommand, runCommand_completes hp hu]
  exact ⟨finish u, core_run_succ 0 hstep, rfl, rfl⟩

/-- Settles O57, by induction on the count: the completion is due, or a step of the host leaves a coherent state with the same
command in flight and a smaller count. -/
theorem acceptedCommandsComplete : Obligations.AcceptedCommandsComplete := by
  intro s c hs hp hduty hrst
  induction hn : s.latencyLeft generalizing s with
  | zero =>
    obtain ⟨t, hrun⟩ := core_run_one_of_due hs hp (by simp [completionDue, hn])
    exact ⟨1, t, le_rfl, hrun⟩
  | succ n ih =>
    cases hd : completionDue s with
    | true =>
      obtain ⟨t, hrun⟩ := core_run_one_of_due hs hp hd
      exact ⟨1, t, by omega, hrun⟩
    | false =>
      obtain ⟨u, hu⟩ := step_runs hs hduty
      obtain ⟨hpu, hlatency, hinputs⟩ := step_before_completion hp hd hrst hu
      obtain ⟨k, t, hk, hrun, hend⟩ := ih u (stepKeepsCoherent s u hs hu) hpu (step_keeps_duty hduty hu)
        (fun hmem => hrst (hinputs hmem)) (by omega)
      exact ⟨k + 1, t, by omega, (core_run_succ k hu).trans hrun, hend⟩

/-- Settles O6: CORE is idle, and the host has no next input. -/
theorem endedRunStays : Obligations.EndedRunStays := by
  intro s ⟨hinputs, hp⟩
  exact (step_idle hp).trans (hostTurn_nil hinputs)

end Sys2Proof.Machine
end

section
/-! Reset (R125, R127): what every register reads after it, and that an assertion of `rst` reaches that state from every state. -/

namespace Sys2Proof.Machine

open Sys2Proof.Safety Sys2Proof.Terms

/-- The value a read answers in the reset state, by the offset: only ID, CONFIG, TABLE_COUNT and the TABLE registers
do not read 0. -/
def resetValue (a : Nat) : Nat :=
  if a = 0x00 then 0x53504B01 else if a = 0x10 then 0x00800080 else if a = 0x70 then 10
  else if 0x80 ≤ a ∧ a ≤ 0xA4 then Pseudocode.tableValues.getD ((a - 0x80) / 4) 0 else 0

theorem readReg_reset (r : Reg) : readReg r State.reset = BitVec.ofNat 32 (resetValue (regOffset r).toNat) := by
  cases r with
  | key j | din j | dout j | table j => revert j; decide
  | _ => rfl

theorem resetValue_reserved {a : Offset} (hr : ReservedOffset a) : resetValue a.toNat = 0 := by
  simp (disch := omega) only [resetValue, if_neg]

theorem memRead_reset {a : Offset} (ha : a.toNat % 4 = 0) :
    memRead a .word State.reset = .ok (BitVec.ofNat 32 (resetValue a.toNat)) := by
  rcases regOffset_or_reserved ha with ⟨r, rfl⟩ | hr
  · rw [memRead_reg, readReg_reset]
  · simp [memRead_reserved ha hr, resetValue_reserved hr]

/-- An assertion of `rst` keeps nothing of CORE, not the command in flight either. -/
theorem resetCore_sameCore (s : State) : SameCore (resetCore s) State.reset := rfl

/-- Settles O42: the elements and `irq` by their values, the files entry by entry, and the reads by the register map. -/
theorem resetStateIsTheSpecs : Obligations.ResetStateIsTheSpecs :=
  ⟨rfl, rfl, rfl, rfl, rfl, rfl, rfl, rfl, rfl, rfl, rfl, rfl, rfl, rfl, fun i _ => entry_replicate_zero 34 i, rfl, rfl,
    fun i _ => entry_replicate_zero 64 i, fun _ => memRead_reset, rfl, fun s => ⟨_, rfl, resetCore_sameCore s⟩⟩

/-- Settles O43: the step is the host's `rst`, which leaves the inputs after it. -/
theorem resetAbandonsTheCommand : Obligations.ResetAbandonsTheCommand := by
  intro s rest h
  obtain ⟨n, hstep⟩ := step_hostTurn h
  exact ⟨_, hstep, resetCore_sameCore _, rfl⟩

/-- Settles O45: the reset state is where `rst` leads from it. -/
theorem resetIsCoherent : Obligations.ResetIsCoherent := resetCore_coherent State.reset

end Sys2Proof.Machine
end
